-- ==== Sys2Proof/Word.lean ====
section
/-! DEFINITION. The words of the ZT-416: bytes, 16-bit and 24-bit numbers, entry numbers and line levels. -/

namespace Sys2Proof

/-- A byte of the tap, of the setup record, or a CRC-8 register. -/
abbrev Byte := BitVec 8

/-- A 16-bit number: a commit serial, a CRC-16, an offset, or a set of stations (bit k for station k, R170). -/
abbrev Half := BitVec 16

/-- A tally value or a notice value, 0 to 16,777,215 (R170). -/
abbrev Tally := BitVec 24

/-- A delta amount as a frame codes it, 12 bits in two's complement (R170). -/
abbrev Amount := BitVec 12

/-- One of the 32 entries of the tally table. -/
abbrev Entry := Fin 32

/-- The level of a pin or of a bus line. -/
inductive Level where
  | low
  | high
  deriving DecidableEq, Repr

/-- On LDATA a level sampled high has the value 1 (R170); TDI is read the same way (DESIGN CHOICE, entry 36). -/
def Level.bit : Level → Bool
  | .low => false
  | .high => true

/-- The level that stands for a bit on LDATA: released for 1, held for 0 (R170); TDI and TDO carry a bit the same way
(DESIGN CHOICE, entry 36). -/
def Level.ofBit : Bool → Level
  | false => .low
  | true => .high

/-- The other level of a line. -/
def Level.flip : Level → Level
  | .low => .high
  | .high => .low

end Sys2Proof
end

