-- ==== Sys2Proof/Config.lean ====
section
/-! DEFINITION. Fixed sizes and times of the part. The spec leaves no value of an instruction free, so no
opaque constant stands here: every choice it leaves to the world is an operand of a command. -/

namespace Sys2Proof.Config

/-- Bytes of the setup record (R160). -/
def recordBytes : Nat := 512

/-- Records the Notice queue holds at most, an OVERFLOW record counted (R141). -/
def noticeDepth : Nat := 16

/-- Records the Snapshot queue holds at most (R135). -/
def snapshotDepth : Nat := 4

/-- Entries that the zero request list and the in-flight zeros hold together at most (R73). -/
def zeroDepth : Nat := 4

/-- Deltas that one frame takes at most (R65). -/
def deltasPerFrame : Nat := 8

/-- Zero requests that one frame takes at most (R66). -/
def zerosPerFrame : Nat := 2

/-- The limit of a pending amount, in either sign (R62). -/
def pendingLimit : Int := 32767

/-- The limit of one amount sent, in either sign (R65). -/
def amountLimit : Int := 2047

/-- The silence count stays at this value once it has reached it (R87). -/
def silenceLimit : Nat := 255

/-- Deselect time that a TSEL fall needs, in ns (R159). -/
def deselectNs : Nat := 2000

/-- Wait before the answer of SETUP_COMMIT may be shifted out, in ns (R159). -/
def commitWaitNs : Nat := 1000000

/-- Wait before every other answer may be shifted out, in ns (R159). -/
def answerWaitNs : Nat := 8000

end Sys2Proof.Config
end

