-- ==== Sys2Proof/Syntax.lean ====
section
/-! DEFINITION. The commands of the station: one constructor for each row of spec/opcode_table.json.

Levels of bus lines and inputs, elapsed times, and the orders that the spec leaves to the world stand as
operands of the command that takes them (DESIGN CHOICE, entries 7 to 11). -/

namespace Sys2Proof

/-- The blocks that may post notices at one round close or abort (R141). -/
inductive NoticeBlock where
  | link
  | replica
  | watch
  | snapshot
  | outbox
  | membership
  deriving DecidableEq, Repr

/-- What a TSEL fall brings: the time since the last tap event, in ns (entry 7), and the level of TCLK (entry 30). -/
structure SelectFall where
  elapsed : Nat
  tclk : Level
  deriving DecidableEq, Repr

/-- The commands. Every tap request row is the sampling edge that completes that request (R150). -/
inductive Instr where
  | powerOnReset
  | resetPinFall
  /-- The end of the reset, with the straps as sampled there (R147). -/
  | resetEnd (fmt1 fmt0 : Level)
  /-- A TSEL fall, with the time since the last tap event and the level of TCLK. -/
  | tselFall (fall : SelectFall)
  | tselRise
  | unknown (code : Byte)
  | status
  | readEntry (entry : Byte)
  | readOutbox (entry : Byte)
  | readRoster
  | takeNotice
  /-- The sampling edge that ends the last reply byte of a TAKE_NOTICE (R143). The byte that TDI brings with it is
  disregarded (R151). -/
  | takeNoticeDelivered
  | readSnapshot (first count : Byte)
  | releaseSnapshot
  | freeze
  | zero (entry : Byte)
  | adjust (entry : Byte) (amount : Half)
  | setOutput (output level : Byte)
  | leave
  /-- REJOIN, with the levels of LMARK and LBEAT as the Link controller finds them on entry to SYNC (R25, R26). -/
  | rejoin (lmark lbeat : Level)
  | setupWrite (offset : Half) (length : Byte) (data : List Byte)
  | setupRead (offset : Half) (length : Byte)
  /-- SETUP_COMMIT, with the levels of LMARK and LBEAT as found on entry to SYNC (R25, R26). -/
  | setupCommit (lmark lbeat : Level)
  | syncLmarkFall
  | syncLbeatChange
  | quietTimerExpiry
  | roundTimerExpiry
  | stallTimerExpiry
  | waitLmarkRise
  | lbeatHalfPeriodExpiry
  /-- A rise of LBEAT in the station's own slot while it transmits, with LDATA as sampled (R52). -/
  | ownFrameSent (ldata : Level)
  /-- The rise of LBEAT that ends another station's present slot (R56). -/
  | frameReceived (ldata : Level)
  /-- The last verdict edge (R38), with the order in which the blocks post their notices (entry 11). -/
  | roundClose (ldata : Level) (order : List NoticeBlock)
  | lmarkFallInRound (order : List NoticeBlock)
  | beatStuckExpiry (order : List NoticeBlock)
  /-- A sample instant: bit i of `levels` is the level of INi; `order` is the order in which the inputs'
  events are taken (R107, R118, entry 10). -/
  | sampleInstant (levels : Byte) (order : List (Fin 8))
  | passageTimerExpiry (pair : Fin 4)
  | pulseTimerExpiry (output : Fin 8)
  | lbeatFall
  | lbeatRise (ldata : Level)
  /-- A sampling edge of TCLK that completes no request, `elapsed` ns after the sampling edge before it (entry 7). -/
  | tclkSamplingEdge (tdi : Level) (elapsed : Nat)
  deriving DecidableEq, Repr

end Sys2Proof
end

