-- ==== Sys2Proof/Machine/State.lean ====
section
/-! DEFINITION. The state of one station as plain data, block by block (Table 0-1), with the reset values
of each block's own table. -/

namespace Sys2Proof.Machine

/-- The setup record: (offset, byte) pairs, offsets rising, no byte 00H listed (entry 24). -/
abbrev Record := List Host.Cell

/-- The two sources of a reset, and the reset cause they record (R154, R161). -/
inductive ResetKind where
  | powerOn
  | pin
  deriving DecidableEq, Repr

/-- The Setup store (R160). -/
structure SetupStore where
  record : Record
  committed : Bool
  digest : Byte
  failure : Half
  cause : ResetKind
  deriving DecidableEq, Repr

/-- One entry record of the replica (R4). -/
structure Tallied where
  value : Tally
  known : Bool
  deriving DecidableEq, Repr

/-- The replica (R4). Its validity is computed from the station state (R5, entry 21). -/
structure Replica where
  entries : Vector Tallied 32
  cs : Half
  csKnown : Bool
  stale : Bool
  deriving DecidableEq, Repr

/-- A delta: an entry and a signed 12-bit amount (R46, R170). -/
structure Delta where
  entry : Entry
  amount : Amount
  deriving DecidableEq, Repr

/-- The Outbox (R61). -/
structure Outbox where
  pending : Vector Int 32
  saturated : Vector Bool 32
  cursor : Entry
  zeroList : List Entry
  freeze : Bool
  leave : Bool
  flightDeltas : List Delta
  flightZeros : List Entry
  flightFreeze : Bool
  flightLeave : Bool
  deriving DecidableEq, Repr

/-- The link controller states of Table 2-2. -/
inductive LinkState where
  | off
  | sync
  | hold
  | wait
  | slots
  | verdict
  deriving DecidableEq, Repr

/-- The wait h of R29: stopped, before the station holds LBEAT, or before it releases LBEAT. -/
inductive HalfPeriod where
  | stopped
  | beforeHold
  | beforeRelease
  deriving DecidableEq, Repr

/-- The Link controller (R23). A running timer holds the time it was started with (entry 6): the round and
stall timers in 10 ms ticks, the BEAT stuck timer in µs. -/
structure Link where
  state : LinkState
  roundTimer : Option Nat
  stallTimer : Option Nat
  stalled : Bool
  stuckTimer : Option Nat
  half : HalfPeriod
  slot : Nat
  bit : Nat
  slotLength : Option Nat
  bitCount : Nat
  /-- One mark for each slot that has begun, slot 0 first; true for present. -/
  presence : List Bool
  verdicts : List Level
  holdLmark : Bool
  holdLbeat : Bool
  holdLdata : Bool
  /-- The level of LBEAT as the station last took it (entry 3). -/
  lbeat : Level
  deriving DecidableEq, Repr

/-- The fields of a frame after its presence bit, as composed or as read (R44 to R47, Table 12-1). -/
structure Frame where
  station : BitVec 4
  cs : Half
  digest : Byte
  check : Half
  join : Bool
  freeze : Bool
  leave : Bool
  zeros : List Entry
  deltas : List Delta
  carryIndex : Entry
  carryValue : Tally
  frameCheck : Half
  deriving DecidableEq, Repr

/-- A reception result (R44). -/
inductive SlotResult where
  | silent
  | own (collided : Bool)
  | valid (frame : Frame) (foreign : Bool)
  | invalid
  deriving DecidableEq, Repr

/-- The Frame unit (R44). -/
structure FrameUnit where
  sending : Option Frame
  readback : List Level
  receiving : List Level
  results : List SlotResult
  /-- The collision mark of the own slot, kept from the collided bit on (R53). -/
  collided : Bool
  object : Bool
  strike : Bool
  deriving DecidableEq, Repr

/-- The station states of Table 5-1. -/
inductive StationState where
  | setup
  | listen
  | joining
  | member
  | parked
  | incompatible
  | fault
  deriving DecidableEq, Repr

/-- A roster mark (R78). -/
inductive Mark where
  | absent
  | present
  | self
  deriving DecidableEq, Repr

/-- The Membership controller (R78). -/
structure Membership where
  state : StationState
  streak : Nat
  silence : Nat
  roster : Vector Mark 16
  fresh : Bool
  cursor : Entry
  deriving DecidableEq, Repr

/-- One input of the Input conditioner (R102). -/
structure Input where
  primed : Bool
  level : Level
  run : Nat
  deriving DecidableEq, Repr

/-- The Input conditioner (R102). -/
structure Conditioner where
  clock : Bool
  inputs : Vector Input 8
  deriving DecidableEq, Repr

/-- The passage states of Table 7-3. -/
inductive PassageState where
  | idle
  | a1
  | abFwd
  | b2Fwd
  | b1
  | abRev
  | a2Rev
  | stuck
  deriving DecidableEq, Repr

/-- A passage detector (R114); a mark is true for BLOCKED. The timer holds the 10 ms ticks it was started with. -/
structure Detector where
  state : PassageState
  markA : Bool
  markB : Bool
  timer : Option Nat
  deriving DecidableEq, Repr

/-- A watch state (R123). -/
inductive Watch where
  | below
  | above
  deriving DecidableEq, Repr

/-- One output of the Output driver (R127). The timer holds the 10 ms ticks it was started with; the latch
is `none` once a commit has dropped it. -/
structure Output where
  level : Level
  pulse : Option Nat
  latch : Option Level
  deriving DecidableEq, Repr

/-- A snapshot record (Table 9-1). -/
structure Snapshot where
  cs : Half
  requesters : Half
  values : Vector Tally 32
  deriving DecidableEq, Repr

/-- The notice kinds of Table 9-2. -/
inductive NoticeKind where
  | stateChanged
  | limitReached
  | limitCleared
  | levelClamped
  | pendingSaturated
  | roundVetoed
  | roundAborted
  | linkStalled
  | linkResumed
  | stationArrived
  | stationDeparted
  | diverged
  | collision
  | passageStuck
  | zeroDone
  | snapshotTaken
  | snapshotDropped
  | overflow
  deriving DecidableEq, Repr

/-- A notice record: a kind and three optional fields (R140). -/
structure Notice where
  kind : NoticeKind
  cs : Option Half
  subject : Option Byte
  value : Option Tally
  deriving DecidableEq, Repr

/-- The transaction states of Table 10-3. -/
inductive TapState where
  | idle
  | request
  | operands
  | answer
  | trailing
  | shut
  deriving DecidableEq, Repr

/-- The TDO pin: high-impedance, a level, or driven before the first shifting edge of a transaction, with no bit of
the status byte placed yet (the formats with FMT0 high, R147, entry 15). -/
inductive Tdo where
  | highZ
  | bit (level : Level)
  | notPlaced
  deriving DecidableEq, Repr

/-- The result codes of Table 10-6. -/
inductive Result where
  | ok
  | empty
  | full
  | already
  | refused
  | badOperand
  | badSetup
  | unknown
  deriving DecidableEq, Repr

/-- An answer as its owner fixed it: the result, the reply bytes, the notice record that it delivers
(TAKE_NOTICE), and the wait before it may be shifted out, in ns (R148, R159). -/
structure Answer where
  result : Result
  reply : List Byte
  delivers : Option Notice
  wait : Nat
  deriving DecidableEq, Repr

/-- The Tap port (R148). -/
structure Tap where
  state : TapState
  /-- The level of TSEL as last taken (entry 2). -/
  tsel : Level
  /-- The byte being shifted in; a byte of which no bit has been taken is 0 (entry 31). -/
  shiftIn : Byte
  /-- The byte being shifted out. -/
  shiftOut : Byte
  /-- Bits taken in the current byte. -/
  bits : Nat
  code : Option Byte
  operands : List Byte
  answer : Option Answer
  /-- Answer bytes shifted out in full so far (R151). -/
  sent : Nat
  /-- Set when the result byte was clocked early (R159). -/
  early : Bool
  deselect : Nat
  fmt1 : Level
  fmt0 : Level
  tdo : Tdo
  /-- The level of TCLK as a transaction last took it (R146, entry 30). -/
  tclk : Level
  /-- Bits of the current byte that shifting edges have placed on TDO so far (R146, Table 10-2). -/
  placed : Nat
  deriving DecidableEq, Repr

/-- The whole state of one station, with the queue of the commands that are waiting. -/
structure State where
  pending : List Instr
  resetting : Option ResetKind
  setup : SetupStore
  replica : Replica
  outbox : Outbox
  link : Link
  frame : FrameUnit
  member : Membership
  inputs : Conditioner
  detectors : Vector Detector 4
  watches : Vector Watch 32
  outputs : Vector Output 8
  snapshots : List Snapshot
  notices : List Notice
  tap : Tap
  deriving DecidableEq, Repr

/-- The station stops in no fault: no rule of the spec gives a command that ends its run. Safe: nothing raises one. -/
inductive Fault where
  deriving DecidableEq, Repr

/-- The reasons for which the model gives a command no meaning. -/
inductive Refusal where
  /-- Raised by exec for a row that has no meaning yet. No arm of exec raises it. Safe: it ends the run. -/
  | notModelled (mnemonic : String)
  deriving DecidableEq, Repr

/-- The replica after a reset, a discard or a catch-up restart (R4, R14, R19). -/
def Replica.empty : Replica :=
  { entries := Vector.replicate 32 { value := 0, known := false }, cs := 0, csKnown := false, stale := false }

/-- The Outbox after a reset (Table 4-1). -/
def Outbox.empty : Outbox :=
  { pending := Vector.replicate 32 0, saturated := Vector.replicate 32 false, cursor := 0, zeroList := []
    freeze := false, leave := false, flightDeltas := [], flightZeros := [], flightFreeze := false
    flightLeave := false }

/-- The Link controller after a reset (Table 2-3). -/
def Link.reset : Link :=
  { state := .off, roundTimer := none, stallTimer := none, stalled := false, stuckTimer := none
    half := .stopped, slot := 0, bit := 0, slotLength := none, bitCount := 0, presence := []
    verdicts := [], holdLmark := false, holdLbeat := false, holdLdata := false, lbeat := .high }

/-- The Frame unit after a reset (Table 3-1). -/
def FrameUnit.reset : FrameUnit :=
  { sending := none, readback := [], receiving := [], results := [], collided := false, object := false
    strike := false }

/-- The Membership controller after a reset (Table 5-2). -/
def Membership.reset : Membership :=
  { state := .setup, streak := 0, silence := 0, roster := Vector.replicate 16 .absent, fresh := false
    cursor := 0 }

/-- The Input conditioner after a reset (Table 6-1). -/
def Conditioner.reset : Conditioner :=
  { clock := false, inputs := Vector.replicate 8 { primed := false, level := .low, run := 0 } }

/-- A passage detector after a reset (Table 7-2). -/
def Detector.reset : Detector :=
  { state := .idle, markA := false, markB := false, timer := none }

/-- An output driven at its safe level at a reset, its latch at the same level (R127). -/
def Output.atReset (safe : Level) : Output :=
  { level := safe, pulse := none, latch := some safe }

/-- The Tap port after a reset (Table 10-4), with TSEL at the level given and the format given; outside a transaction
TCLK is not watched, and its level stands at low (entry 30). -/
def Tap.reset (tsel fmt1 fmt0 : Level) : Tap :=
  { state := .idle, tsel := tsel, shiftIn := 0, shiftOut := 0, bits := 0, code := none, operands := []
    answer := none, sent := 0, early := false, deselect := Config.deselectNs, fmt1 := fmt1, fmt0 := fmt0
    tdo := .highZ, tclk := .low, placed := 0 }

/-- The machine when a power-on reset has ended: every block at its reset value, the record all zeros, the
cause POWER_ON, and the straps and TSEL at the levels of entries 1 and 2. -/
def State.reset : State :=
  { pending := []
    resetting := none
    setup := { record := [], committed := false, digest := 0, failure := 0xFFFF, cause := .powerOn }
    replica := Replica.empty
    outbox := Outbox.empty
    link := Link.reset
    frame := FrameUnit.reset
    member := Membership.reset
    inputs := Conditioner.reset
    detectors := Vector.replicate 4 Detector.reset
    watches := Vector.replicate 32 .below
    outputs := Vector.replicate 8 (Output.atReset .low)
    snapshots := []
    notices := []
    tap := Tap.reset .high .low .low }

end Sys2Proof.Machine
end

