-- ==== Sys2Proof/Machine/Bits.lean ====
section
/-! DEFINITION. Bit fields, byte order and the two cyclic checks. Bits and bytes stand most significant
first everywhere (R170). -/

namespace Sys2Proof.Machine

/-- The bits of a word, most significant first (R170). -/
def bitsOf {w : Nat} (x : BitVec w) : List Bool :=
  (List.range w).map fun i => x.getMsbD i

/-- The number that a list of bits spells, most significant first (R170). -/
def natOfBits (bits : List Bool) : Nat :=
  bits.foldl (fun n b => 2 * n + b.toNat) 0

/-- The number that `width` bits spell from position `position` on, positions counted from 1 (Table 12-1). -/
def bitField (bits : List Bool) (position width : Nat) : Nat :=
  natOfBits ((bits.drop (position - 1)).take width)

/-- The two bytes of a 16-bit number, most significant first (R170). -/
def bytesOfHalf (x : Half) : List Byte :=
  [x.extractLsb' 8 8, x.extractLsb' 0 8]

/-- The three bytes of a tally value, most significant first (R170). -/
def bytesOfTally (x : Tally) : List Byte :=
  [x.extractLsb' 16 8, x.extractLsb' 8 8, x.extractLsb' 0 8]

/-- The tally value that three bytes spell, most significant first (R170). -/
def tallyOfBytes (b2 b1 b0 : Byte) : Tally := b2 ++ b1 ++ b0

/-- One bit of the CRC-16: compare the top bit with the data bit, shift towards the top, and combine with
1021H if they differed (R8). -/
def crc16Bit (register : Half) (bit : Bool) : Half :=
  if register.msb = bit then register <<< 1 else (register <<< 1) ^^^ 0x1021

/-- The CRC-16 over a list of bits, the register starting at FFFFH (R8, R47). -/
def crc16 (bits : List Bool) : Half := bits.foldl crc16Bit 0xFFFF

/-- One bit of the CRC-8: shift towards the top, and combine with 07H if the bit shifted out differed from
the data bit (R48). -/
def crc8Bit (register : Byte) (bit : Bool) : Byte :=
  if register.msb = bit then register <<< 1 else (register <<< 1) ^^^ 0x07

/-- The CRC-8 over a list of bits, the register starting at 00H (R48). -/
def crc8 (bits : List Bool) : Byte := bits.foldl crc8Bit 0

/-- The set of stations as 16 bits, bit k for station k (R170). -/
def stationSet (stations : List Nat) : Half :=
  stations.foldl (fun set k => set ||| BitVec.twoPow 16 k) 0

/-- The entries in ascending order from `start` on, wrapping from 31 to 0: every entry once (R65, R86). -/
def entriesFrom (start : Entry) : List Entry :=
  (List.finRange 32).map fun i => start + i

end Sys2Proof.Machine
end

