-- ==== Sys2Proof/Machine/Record.lean ====
section
/-! DEFINITION. The setup record as an addressed store of 512 bytes, and the byte operations over it
(R160, R162, R163). -/

namespace Sys2Proof.Machine

/-- The byte that an unlisted offset reads as: what a power-on reset writes (R161). -/
def unlistedByte : Byte := 0x00

/-- The byte at an offset. -/
def Record.read : Record → Nat → Byte
  | [], _ => unlistedByte
  | (k, b) :: rest, offset => if k = offset then b else Record.read rest offset

/-- The record with one byte written, in the canonical form. -/
def Record.write : Record → Nat → Byte → Record
  | [], offset, b => if b = unlistedByte then [] else [(offset, b)]
  | (k, c) :: rest, offset, b =>
    if offset < k then
      if b = unlistedByte then (k, c) :: rest else (offset, b) :: (k, c) :: rest
    else if offset = k then
      if b = unlistedByte then rest else (offset, b) :: rest
    else (k, c) :: Record.write rest offset b

/-- The record with bytes written at an offset and the offsets that follow it, in order (R162). -/
def Record.writeAll : Record → Nat → List Byte → Record
  | m, _, [] => m
  | m, offset, b :: rest => Record.writeAll (m.write offset b) (offset + 1) rest

/-- The offsets of a record rise strictly from `least` on, stay below 512, and no byte listed is 00H. -/
def Record.wfFrom : Nat → Record → Bool
  | _, [] => true
  | least, (k, b) :: rest =>
    decide (least ≤ k) && decide (k < Config.recordBytes) && decide (b ≠ unlistedByte) &&
      Record.wfFrom (k + 1) rest

/-- The canonical form of the setup record. -/
def Record.wf (m : Record) : Bool := Record.wfFrom 0 m

/-- A three-byte field, most significant byte first (R170). -/
def Record.readTally (m : Record) (offset : Nat) : Tally :=
  tallyOfBytes (m.read offset) (m.read (offset + 1)) (m.read (offset + 2))

/-- The bytes of the readable range 000H to 201H: the record, then the failure offset (R163). -/
def readableByte (m : Record) (failure : Half) (offset : Nat) : Byte :=
  if offset < 0x200 then m.read offset
  else if offset = 0x200 then failure.extractLsb' 8 8
  else failure.extractLsb' 0 8

end Sys2Proof.Machine
end

