-- ==== Sys2Proof/Machine/Settings.lean ====
section
/-! DEFINITION. The settings as the other blocks read them from the setup record (Tables 11-2 and 12-2).
Every function reads the record by the layout of Table 12-2. A code that no committed record holds reads as
the first name of its table (entry 23). -/

namespace Sys2Proof.Machine

/-- Entry kinds (Table 1-1). -/
inductive EntryKind where
  | off
  | count
  | level
  deriving DecidableEq, Repr

/-- Input modes (R108). -/
inductive InputMode where
  | unused
  | single
  | pairA
  | pairB
  deriving DecidableEq, Repr

/-- Edge selects of a single input (Table 6-5). -/
inductive EdgeSelect where
  | rising
  | falling
  | both
  deriving DecidableEq, Repr

/-- Output sources (Table 8-2). -/
inductive OutputSource where
  | none
  | watch
  | local
  deriving DecidableEq, Repr

/-- Modes of a WATCH output (Table 8-2). -/
inductive OutputMode where
  | level
  | levelInverted
  | pulseOnReach
  | pulseOnClear
  | pulseBoth
  deriving DecidableEq, Repr

/-- A map of an input: an entry or none, and the signed amount that one edge or passage adds (R110, R117). -/
structure CountMap where
  entry : Option Entry
  amount : Int
  deriving DecidableEq, Repr

/-- Station number, offset 00H. -/
def Record.stationNumber (m : Record) : Nat := (m.read 0x00).toNat

/-- Cluster size N, offset 01H. -/
def Record.clusterSize (m : Record) : Nat := (m.read 0x01).toNat

/-- Founding allowed, bit 0 of offset 02H. -/
def Record.foundingAllowed (m : Record) : Bool := (m.read 0x02).getLsbD 0

/-- The half-period h in µs (Table 2-4), code at offset 03H. -/
def Record.halfPeriod (m : Record) : Nat :=
  match (m.read 0x03).toNat with
  | 1 => 10
  | 2 => 20
  | 3 => 50
  | _ => 5

/-- The BEAT stuck limit in µs: 64 nominal bit times, 128 × h (R41). -/
def Record.stuckLimit (m : Record) : Nat := 128 * m.halfPeriod

/-- The round interval I in 10 ms ticks, offset 04H. -/
def Record.roundInterval (m : Record) : Nat := (m.read 0x04).toNat

/-- The quiet time 4 × I in 10 ms ticks (R26). -/
def Record.quietTime (m : Record) : Nat := 4 * m.roundInterval

/-- The stall limit in 10 ms ticks: offset 05H counts 100 ms (R28). -/
def Record.stallLimit (m : Record) : Nat := 10 * (m.read 0x05).toNat

/-- The objection limit M, offset 06H. -/
def Record.objectionLimit (m : Record) : Nat := (m.read 0x06).toNat

/-- The founding silence F, offset 07H. -/
def Record.foundingSilence (m : Record) : Nat := (m.read 0x07).toNat

/-- The sample period in 0.25 ms ticks (Table 6-2), code at offset 08H. -/
def Record.samplePeriod (m : Record) : Nat :=
  match (m.read 0x08).toNat with
  | 1 => 2
  | 2 => 4
  | 3 => 8
  | _ => 1

/-- The passage limit in 10 ms ticks, or none when it is off: offset 09H counts 20 ms (R119). -/
def Record.passageLimit (m : Record) : Option Nat :=
  if m.read 0x09 = 0 then none else some (2 * (m.read 0x09).toNat)

/-- The offset at which the record of entry e begins. -/
def entryOffset (e : Entry) : Nat := 0x10 + 13 * e.val

/-- The offset at which the record of input i begins. -/
def inputOffset (i : Fin 8) : Nat := 0x1B0 + 6 * i.val

/-- The offset at which the record of output o begins. -/
def outputOffset (o : Fin 8) : Nat := 0x1E0 + 4 * o.val

/-- The kind of an entry, bits 1 to 0 of its kind byte. -/
def Record.kind (m : Record) (e : Entry) : EntryKind :=
  match ((m.read (entryOffset e)).extractLsb' 0 2).toNat with
  | 1 => .count
  | 2 => .level
  | _ => .off

/-- The watch enable of an entry, bit 7 of its kind byte. -/
def Record.watched (m : Record) (e : Entry) : Bool := (m.read (entryOffset e)).getLsbD 7

/-- The preset of an entry. -/
def Record.preset (m : Record) (e : Entry) : Tally := m.readTally (entryOffset e + 1)

/-- The ceiling of an entry. -/
def Record.ceiling (m : Record) (e : Entry) : Tally := m.readTally (entryOffset e + 4)

/-- The high level H of an entry's watch. -/
def Record.watchHigh (m : Record) (e : Entry) : Tally := m.readTally (entryOffset e + 7)

/-- The low level L of an entry's watch. -/
def Record.watchLow (m : Record) (e : Entry) : Tally := m.readTally (entryOffset e + 10)

/-- The mode of an input. -/
def Record.inputMode (m : Record) (i : Fin 8) : InputMode :=
  match (m.read (inputOffset i)).toNat with
  | 1 => .single
  | 2 => .pairA
  | 3 => .pairB
  | _ => .unused

/-- The settle count S of an input (Table 6-3), code in the high nibble of its second byte. -/
def Record.settleCount (m : Record) (i : Fin 8) : Nat :=
  match ((m.read (inputOffset i + 1)).extractLsb' 4 4).toNat with
  | 1 => 2
  | 2 => 4
  | 3 => 8
  | 4 => 16
  | _ => 1

/-- The edge select of a single input, low nibble of its second byte. -/
def Record.edgeSelect (m : Record) (i : Fin 8) : EdgeSelect :=
  match ((m.read (inputOffset i + 1)).extractLsb' 0 4).toNat with
  | 1 => .falling
  | 2 => .both
  | _ => .rising

/-- The blocked level of a pair, low nibble of its PAIR_A record's second byte. -/
def Record.blockedLevel (m : Record) (i : Fin 8) : Level :=
  if ((m.read (inputOffset i + 1)).extractLsb' 0 4).toNat = 1 then .high else .low

/-- The map whose entry byte stands at an offset and whose sign-and-weight byte follows it. -/
def Record.mapAt (m : Record) (offset : Nat) : CountMap :=
  let weight : Int := ((m.read (offset + 1)).extractLsb' 0 4).toNat
  { entry := if h : (m.read offset).toNat < 32 then some ⟨(m.read offset).toNat, h⟩ else none
    amount := if (m.read (offset + 1)).getLsbD 7 then -weight else weight }

/-- The first map of an input: a single input's map, or a pair's forward map. -/
def Record.firstMap (m : Record) (i : Fin 8) : CountMap := m.mapAt (inputOffset i + 2)

/-- The second map of an input: a pair's reverse map. -/
def Record.secondMap (m : Record) (i : Fin 8) : CountMap := m.mapAt (inputOffset i + 4)

/-- The source of an output. -/
def Record.outputSource (m : Record) (o : Fin 8) : OutputSource :=
  match (m.read (outputOffset o)).toNat with
  | 1 => .watch
  | 2 => .local
  | _ => .none

/-- The entry that an output watches. -/
def Record.outputEntry (m : Record) (o : Fin 8) : Entry :=
  Fin.ofNat 32 (m.read (outputOffset o + 1)).toNat

/-- The safe level of an output, bit 7 of its mode byte. -/
def Record.safeLevel (m : Record) (o : Fin 8) : Level :=
  Level.ofBit ((m.read (outputOffset o + 2)).getLsbD 7)

/-- The mode of a WATCH output, low nibble of its mode byte. -/
def Record.outputMode (m : Record) (o : Fin 8) : OutputMode :=
  match ((m.read (outputOffset o + 2)).extractLsb' 0 4).toNat with
  | 2 => .levelInverted
  | 3 => .pulseOnReach
  | 4 => .pulseOnClear
  | 5 => .pulseBoth
  | _ => .level

/-- The pulse width of an output in 10 ms ticks. -/
def Record.pulseWidth (m : Record) (o : Fin 8) : Nat := (m.read (outputOffset o + 3)).toNat

/-- The settings in force: the record while it is committed. While it is not, every field reads as the
all-zero record does: every entry OFF, every input UNUSED, number and N 0 (R1, R156, entry 22). -/
def State.settings (s : State) : Record := if s.setup.committed then s.setup.record else []

/-- The value of an entry wherever it is read: an OFF entry reads 0 (R1). -/
def readValue (m : Record) (r : Replica) (e : Entry) : Tally :=
  if m.kind e = .off then 0 else r.entries[e].value

/-- The replica check: the CRC-16 over the 32 values in index order, three bytes each (R8). -/
def replicaCheck (m : Record) (r : Replica) : Half :=
  crc16 ((List.finRange 32).flatMap fun e => bitsOf (readValue m r e))

/-- The bytes of the digest: offset 01H, then 10H to 1AFH (R48). -/
def digestOffsets : List Nat := 0x01 :: List.range' 0x10 416

/-- The setup digest: the CRC-8 over 417 bytes of the record (R48). -/
def Record.digest (m : Record) : Byte :=
  crc8 (digestOffsets.flatMap fun offset => bitsOf (m.read offset))

end Sys2Proof.Machine
end

