-- ==== Sys2Proof/Machine/Notices.lean ====
section
/-! DEFINITION. Notice records, the Notice queue, ATTN, and the order in which the blocks post at one close
(R140 to R145, Tables 9-2 and 12-6). -/

namespace Sys2Proof.Machine

/-- The codes of the notice kinds (Table 12-6). -/
def NoticeKind.code : NoticeKind → Byte
  | .stateChanged => 0x01
  | .limitReached => 0x02
  | .limitCleared => 0x03
  | .levelClamped => 0x04
  | .pendingSaturated => 0x05
  | .roundVetoed => 0x06
  | .roundAborted => 0x07
  | .linkStalled => 0x08
  | .linkResumed => 0x09
  | .stationArrived => 0x0A
  | .stationDeparted => 0x0B
  | .diverged => 0x0C
  | .collision => 0x0D
  | .passageStuck => 0x0E
  | .zeroDone => 0x0F
  | .snapshotTaken => 0x10
  | .snapshotDropped => 0x11
  | .overflow => 0x12

/-- The causes of a change of station state (Table 5-3). -/
inductive Cause where
  | setupCommitted
  | caughtUp
  | founded
  | joined
  | withdrawn
  | foreignDigest
  | duplicateNumber
  | left
  | rejoined
  deriving DecidableEq, Repr

/-- The codes of the causes (Table 12-6). -/
def Cause.code : Cause → Byte
  | .setupCommitted => 0x01
  | .caughtUp => 0x02
  | .founded => 0x03
  | .joined => 0x04
  | .withdrawn => 0x05
  | .foreignDigest => 0x06
  | .duplicateNumber => 0x07
  | .left => 0x08
  | .rejoined => 0x09

/-- The codes of the station states (Table 12-3). -/
def StationState.code : StationState → Byte
  | .setup => 0
  | .listen => 1
  | .joining => 2
  | .member => 3
  | .parked => 4
  | .incompatible => 5
  | .fault => 6

/-- The presence flags of a notice record: bit 0 CS, bit 1 subject, bit 2 value (Chapter 12). -/
def Notice.flags (n : Notice) : Byte :=
  BitVec.ofNat 8 (n.cs.isSome.toNat + 2 * n.subject.isSome.toNat + 4 * n.value.isSome.toNat)

/-- The eight bytes of a notice record; an absent field is all zeros (R171, Chapter 12). -/
def Notice.bytes (n : Notice) : List Byte :=
  [n.kind.code, n.flags] ++ bytesOfHalf (n.cs.getD 0) ++ [n.subject.getD 0] ++ bytesOfTally (n.value.getD 0)

/-- The OVERFLOW record that has counted `lost` notices (R142). -/
def overflowRecord (lost : Tally) : Notice :=
  { kind := .overflow, cs := none, subject := none, value := some lost }

/-- Whether a record is the OVERFLOW record. -/
def Notice.isOverflow (n : Notice) : Bool := n.kind == .overflow

/-- The count of an OVERFLOW record raised by one, staying at 16,777,215 (R142). -/
def countLost (n : Notice) : Notice :=
  { n with value := some (if n.value.getD 0 = 0xFFFFFF then 0xFFFFFF else n.value.getD 0 + 1) }

/-- Whether the queue holds an OVERFLOW record (R142). -/
def holdsOverflow (queue : List Notice) : Bool := queue.any Notice.isOverflow

/-- One posting: the notice joins the tail, or forms the OVERFLOW record as the 16th, or is counted in the
OVERFLOW record that is held (R142). -/
def postTo (queue : List Notice) (n : Notice) : List Notice :=
  if holdsOverflow queue then queue.map fun r => if r.isOverflow then countLost r else r
  else if queue.length + 1 < Config.noticeDepth then queue ++ [n]
  else queue ++ [overflowRecord 1]

/-- Several postings, one after the other. -/
def postAllTo (queue : List Notice) (ns : List Notice) : List Notice := ns.foldl postTo queue

/-- The queue after the delivery of a record: an ordinary record is removed; an OVERFLOW record loses the
value reported, and is removed when nothing remains (R143, R144). -/
def deliver (queue : List Notice) (reported : Notice) : List Notice :=
  match queue with
  | [] => []
  | n :: rest =>
    if n.isOverflow then
      if n.value.getD 0 = reported.value.getD 0 then rest
      else { n with value := some (n.value.getD 0 - reported.value.getD 0) } :: rest
    else rest

/-- The station posts a notice. -/
def State.post (s : State) (n : Notice) : State := { s with notices := postTo s.notices n }

/-- The station posts several notices, one after the other. -/
def State.postAll (s : State) (ns : List Notice) : State := { s with notices := postAllTo s.notices ns }

/-- Whether the station holds ATTN low: exactly while the Notice queue holds a record (R145). -/
def State.attnHeld (s : State) : Bool := !s.notices.isEmpty

/-- The notices that each block has to post at one close or abort, each block's in its own order (R141). -/
structure Posts where
  link : List Notice := []
  replica : List Notice := []
  watch : List Notice := []
  snapshot : List Notice := []
  outbox : List Notice := []
  membership : List Notice := []
  deriving DecidableEq, Repr

/-- The next notice of a block, and what is left. The Watch unit and the Snapshot queue have nothing to post
before the Replica has posted all of its notices (R12, R126). -/
def Posts.take (p : Posts) : NoticeBlock → Option (Notice × Posts)
  | .link =>
    match p.link with
    | [] => none
    | n :: rest => some (n, { p with link := rest })
  | .replica =>
    match p.replica with
    | [] => none
    | n :: rest => some (n, { p with replica := rest })
  | .watch =>
    match p.replica, p.watch with
    | [], n :: rest => some (n, { p with watch := rest })
    | _, _ => none
  | .snapshot =>
    match p.replica, p.snapshot with
    | [], n :: rest => some (n, { p with snapshot := rest })
    | _, _ => none
  | .outbox =>
    match p.outbox with
    | [] => none
    | n :: rest => some (n, { p with outbox := rest })
  | .membership =>
    match p.membership with
    | [] => none
    | n :: rest => some (n, { p with membership := rest })

/-- All the notices of one close in the order in which the blocks post them. Each element of `order` names
the block that posts next; what the order leaves over follows block by block (R141, entry 11). -/
def Posts.inOrder : List NoticeBlock → Posts → List Notice
  | [], p => p.link ++ p.replica ++ p.watch ++ p.snapshot ++ p.outbox ++ p.membership
  | b :: rest, p =>
    match p.take b with
    | some (n, p') => n :: Posts.inOrder rest p'
    | none => Posts.inOrder rest p

end Sys2Proof.Machine
end

