-- ==== Sys2Proof/Machine/Flags.lean ====
section
/-! DEFINITION. Every flag and coded bit that a tap byte carries: validity, the status byte, and the flag bytes
of the replies (R5, R154, Tables 12-3 and 12-4). -/

namespace Sys2Proof.Machine

/-- A station state in which the replica is valid: JOINING or MEMBER (R5). -/
def StationState.holdsValid : StationState → Bool
  | .joining | .member => true
  | .setup | .listen | .parked | .incompatible | .fault => false

/-- Whether the replica is valid (R5). -/
def State.valid (s : State) : Bool := s.member.state.holdsValid

/-- The CS field of a notice posted now: the CS when the replica is valid (R140). -/
def State.noticeCs (s : State) : Option Half := if s.valid then some s.replica.cs else none

/-- The reset cause bit of the status byte: 0 POWER_ON, 1 PIN (Table 12-3). -/
def ResetKind.bit : ResetKind → Bool
  | .powerOn => false
  | .pin => true

/-- The status byte as it stands: cause, stalled, snapshot held, notice waiting, bit 3 clear, state code
(R154, Table 12-3). -/
def State.statusByte (s : State) : Byte :=
  BitVec.ofNat 8 (128 * s.setup.cause.bit.toNat + 64 * s.link.stalled.toNat +
    32 * (!s.snapshots.isEmpty).toNat + 16 * (!s.notices.isEmpty).toNat) ||| s.member.state.code

/-- The watch state of an entry as READ_ENTRY reports it: NONE without an enabled watch (R123). -/
def State.watchState (s : State) (e : Entry) : Option Watch :=
  if s.settings.watched e then some s.watches[e] else none

/-- The code of a reported watch state: 0 NONE, 1 BELOW, 2 ABOVE (Table 12-4). -/
def watchCode : Option Watch → Nat
  | none => 0
  | some .below => 1
  | some .above => 2

/-- The known flag as READ_ENTRY reports it. An OFF entry is known while the replica is valid or stale, and
in LISTEN once CS is known; a valid replica reports true; in SETUP nothing is known (R6, R21). -/
def State.knownFlag (s : State) (e : Entry) : Bool :=
  match s.member.state with
  | .setup => false
  | .joining | .member => true
  | .listen => if s.settings.kind e = .off then s.replica.csKnown else s.replica.entries[e].known
  | .parked | .incompatible | .fault => if s.settings.kind e = .off then true else s.replica.entries[e].known

/-- The flag byte of READ_ENTRY: bit 0 known, bit 1 stale, bits 3 to 2 watch state (Table 12-4). -/
def State.entryFlags (s : State) (e : Entry) : Byte :=
  BitVec.ofNat 8 ((s.knownFlag e).toNat + 2 * s.replica.stale.toNat + 4 * watchCode (s.watchState e))

/-- The zero state of an entry: 0 NONE, 1 LISTED, 2 IN_FLIGHT (R77, Table 12-4). -/
def Outbox.zeroState (o : Outbox) (e : Entry) : Nat :=
  if e ∈ o.flightZeros then 2 else if e ∈ o.zeroList then 1 else 0

/-- The flag byte of READ_OUTBOX: bit 0 saturation, bits 2 to 1 zero state, bit 4 freeze flag, bit 5 in-flight
FREEZE, bit 6 leave flag, bit 7 in-flight LEAVE; an OFF entry has the zero state NONE (R77, Table 12-4). -/
def State.outboxFlags (s : State) (e : Entry) : Byte :=
  let o := s.outbox
  let zeroBits := if s.settings.kind e = .off then 0 else o.zeroState e
  BitVec.ofNat 8 (o.saturated[e].toNat + 2 * zeroBits + 16 * o.freeze.toNat + 32 * o.flightFreeze.toNat +
    64 * o.leave.toNat + 128 * o.flightLeave.toNat)

/-- The code of a roster mark: 0 ABSENT, 1 PRESENT, 2 SELF (Table 12-4). -/
def Mark.code : Mark → Nat
  | .absent => 0
  | .present => 1
  | .self => 2

/-- A roster byte: four marks of two bits, the lowest slot in the top bits (Table 12-4). -/
def rosterByte (a b c d : Mark) : Byte :=
  BitVec.ofNat 8 (64 * a.code + 16 * b.code + 4 * c.code + d.code)

/-- The four roster bytes of READ_ROSTER (R158, Table 12-4). -/
def rosterBytes (r : Vector Mark 16) : List Byte :=
  [ rosterByte r[0] r[1] r[2] r[3], rosterByte r[4] r[5] r[6] r[7],
    rosterByte r[8] r[9] r[10] r[11], rosterByte r[12] r[13] r[14] r[15] ]

/-- The flag byte of READ_ROSTER: bit 0 CS known, bit 1 stale; a valid replica's CS is known (R158). -/
def State.rosterFlags (s : State) : Byte :=
  BitVec.ofNat 8 ((s.valid || s.replica.csKnown).toNat + 2 * s.replica.stale.toNat)

end Sys2Proof.Machine
end

