-- ==== Sys2Proof/Machine/Tally.lean ====
section
/-! DEFINITION. The replica: value arithmetic, the application of a committed round, adoption at a listener,
founding, discard and staleness (Chapter 1). -/

namespace Sys2Proof.Machine

/-- What one present frame brings to the table: its zero requests and its deltas, in frame order (R10). -/
structure Business where
  zeros : List Entry
  deltas : List Delta
  deriving DecidableEq, Repr

/-- The business of a frame. -/
def Frame.business (f : Frame) : Business := { zeros := f.zeros, deltas := f.deltas }

/-- A delta applied to a value: the new value and the amount cut. COUNT wraps, LEVEL clamps to 0..ceiling,
OFF is not written (R1, R2, R3). -/
def deltaResult (kind : EntryKind) (ceiling value : Tally) (amount : Amount) : Tally × Nat :=
  match kind with
  | .off => (value, 0)
  | .count => (value + amount.signExtend 24, 0)
  | .level =>
    let sum : Int := (value.toNat : Int) + amount.toInt
    if sum < 0 then (0, (-sum).toNat)
    else if (ceiling.toNat : Int) < sum then (ceiling, (sum - ceiling.toNat).toNat)
    else (BitVec.ofInt 24 sum, 0)

/-- The replica with the value of one entry replaced. -/
def Replica.setValue (r : Replica) (e : Entry) (value : Tally) : Replica :=
  { r with entries := r.entries.set e { r.entries[e] with value := value } }

/-- Whether an application may write an entry: it is not OFF (R1), and at a listener it is known (R16). -/
def Replica.writes (m : Record) (listening : Bool) (r : Replica) (e : Entry) : Bool :=
  decide (m.kind e ≠ .off) && (!listening || r.entries[e].known)

/-- A zero request applied: the entry takes its preset (R2, R3). -/
def Replica.applyZero (m : Record) (listening : Bool) (r : Replica) (e : Entry) : Replica :=
  if r.writes m listening e then r.setValue e (m.preset e) else r

/-- The amounts cut by clamping, in the order of application: entry and amount. -/
abbrev Cuts := List (Entry × Nat)

/-- A delta applied, with the amount cut noted (R2, R3). -/
def Replica.applyDelta (m : Record) (listening : Bool) (rc : Replica × Cuts) (d : Delta) : Replica × Cuts :=
  if rc.1.writes m listening d.entry then
    let result := deltaResult (m.kind d.entry) (m.ceiling d.entry) rc.1.entries[d.entry].value d.amount
    (rc.1.setValue d.entry result.1, if result.2 = 0 then rc.2 else rc.2 ++ [(d.entry, result.2)])
  else rc

/-- One frame applied: its zero requests first, then its deltas, each in frame order (R10). -/
def Replica.applyBusiness (m : Record) (listening : Bool) (rc : Replica × Cuts) (b : Business) :
    Replica × Cuts :=
  b.deltas.foldl (Replica.applyDelta m listening) (b.zeros.foldl (Replica.applyZero m listening) rc.1, rc.2)

/-- The frames of a round applied in slot order (R10, R16). -/
def Replica.applyAll (m : Record) (listening : Bool) (r : Replica) (round : List Business) : Replica × Cuts :=
  round.foldl (Replica.applyBusiness m listening) (r, [])

/-- A committed round with a present frame applied at a valid replica: every frame, then the CS increment
(R10, R12). -/
def Replica.applyRound (m : Record) (r : Replica) (round : List Business) : Replica × Cuts :=
  let applied := r.applyAll m false round
  ({ applied.1 with cs := applied.1.cs + 1 }, applied.2)

/-- The frames received as VALID with the station's own digest, in slot order (R14). -/
def ownDigestFrames (results : List SlotResult) : List Frame :=
  results.filterMap fun r =>
    match r with
    | .valid f false => some f
    | .valid _ true | .silent | .own _ | .invalid => none

/-- Whether two frames carry different values for the same entry (R14). -/
def carriesDisagree (f g : Frame) : Bool :=
  decide (f.carryIndex = g.carryIndex) && decide (f.carryValue ≠ g.carryValue)

/-- Whether a committed round is in doubt at a listener (R14). -/
def Replica.inDoubt (r : Replica) (results : List SlotResult) : Bool :=
  let frames := ownDigestFrames results
  results.any (fun result => result == .invalid) ||
  frames.any (fun f => frames.any fun g => decide (f.cs ≠ g.cs)) ||
  frames.any (fun f => r.csKnown && decide (f.cs ≠ r.cs)) ||
  frames.any (fun f => frames.any (carriesDisagree f)) ||
  frames.any (fun f => r.entries[f.carryIndex].known &&
    decide (f.carryValue ≠ r.entries[f.carryIndex].value))

/-- The carry of one frame adopted: the entry takes the value and becomes known (R15). -/
def Replica.adoptCarry (r : Replica) (f : Frame) : Replica :=
  { r with entries := r.entries.set f.carryIndex { value := f.carryValue, known := true } }

/-- CS taken from the first valid frame when it is not known (R15). -/
def Replica.adoptCs (r : Replica) (frames : List Frame) : Replica :=
  match frames with
  | f :: _ => if r.csKnown then r else { r with cs := f.cs, csKnown := true }
  | [] => r

/-- A known CS incremented once the round has been applied (R16). -/
def Replica.countRound (r : Replica) : Replica := if r.csKnown then { r with cs := r.cs + 1 } else r

/-- A committed round that is not in doubt adopted by a listener: CS and carries in slot order, then the
zeros and deltas on the entries then known, then the increment (R15, R16). -/
def Replica.adopt (m : Record) (r : Replica) (frames : List Frame) : Replica :=
  let carried := frames.foldl Replica.adoptCarry (r.adoptCs frames)
  (carried.applyAll m true (frames.map Frame.business)).1.countRound

/-- Whether the table is complete: every non-OFF entry and CS known (R6). -/
def Replica.complete (m : Record) (r : Replica) : Bool :=
  r.csKnown && (List.finRange 32).all fun e => decide (m.kind e = .off) || r.entries[e].known

/-- The table founded from the presets; an OFF entry is not written (R1, R18). -/
def Replica.found (m : Record) (r : Replica) : Replica :=
  { entries := Vector.ofFn fun e : Entry =>
      if m.kind e = .off then r.entries[e] else { value := m.preset e, known := true }
    cs := 0, csKnown := true, stale := false }

end Sys2Proof.Machine
end

