-- ==== Sys2Proof/Machine/Contributions.lean ====
section
/-! DEFINITION. The Outbox: saturating additions, selection at composition, retirement and return (Chapter 4). -/

namespace Sys2Proof.Machine

/-- A sum held to the pending limit (R62). -/
def saturate (sum : Int) : Int := max (-Config.pendingLimit) (min Config.pendingLimit sum)

/-- The amount that an addition loses: the distance between the sum and the result (R62, entry 13). -/
def amountLost (sum : Int) : Nat := (sum - saturate sum).natAbs

/-- One addition to a pending amount. The second part is the amount lost that must be reported: a loss while
the entry's saturation flag is clear (R62). -/
def Outbox.add (o : Outbox) (e : Entry) (amount : Int) : Outbox × Option Nat :=
  let sum := o.pending[e] + amount
  let added := { o with pending := o.pending.set e (saturate sum) }
  if amountLost sum = 0 then (added, none)
  else ({ added with saturated := o.saturated.set e true },
        if o.saturated[e] then none else some (amountLost sum))

/-- A PENDING_SATURATED notice: the entry and the amount lost (R62). -/
def saturatedNotice (cs : Option Half) (e : Entry) (lost : Nat) : Notice :=
  { kind := .pendingSaturated, cs := cs, subject := some (BitVec.ofNat 8 e.val), value := some (BitVec.ofNat 24 lost) }

/-- One addition, with the notice it posts, if any. -/
def Outbox.addNoting (cs : Option Half) (on : Outbox × List Notice) (e : Entry) (amount : Int) :
    Outbox × List Notice :=
  let added := on.1.add e amount
  (added.1, on.2 ++ (added.2.map (saturatedNotice cs e)).toList)

/-- The entries that composition takes: from the cursor on, those with a nonzero pending amount, at most 8 (R65). -/
def Outbox.selection (o : Outbox) : List Entry :=
  ((entriesFrom o.cursor).filter fun e => decide (o.pending[e] ≠ 0)).take Config.deltasPerFrame

/-- The amount sent of a pending amount: held to -2047..+2047 (R65). -/
def amountSent (pending : Int) : Int := max (-Config.amountLimit) (min Config.amountLimit pending)

/-- The delta records of a composition, in the order taken (R65). -/
def Outbox.deltasTaken (o : Outbox) : List Delta :=
  o.selection.map fun e => { entry := e, amount := BitVec.ofInt 12 (amountSent o.pending[e]) }

/-- The zero requests of a composition: up to 2 from the head of the list (R66). -/
def Outbox.zerosTaken (o : Outbox) : List Entry := o.zeroList.take Config.zerosPerFrame

/-- The LEAVE flag of a composition: the leave flag in MEMBER, clear in JOINING (R50, R67). -/
def Outbox.leaveTaken (o : Outbox) (member : Bool) : Bool := o.leave && member

/-- The Outbox after a composition: what was taken is in flight (R65, R66, R67). -/
def Outbox.afterComposition (o : Outbox) (member : Bool) : Outbox :=
  { pending := Vector.ofFn fun e : Entry =>
      if e ∈ o.selection then o.pending[e] - amountSent o.pending[e] else o.pending[e]
    saturated := Vector.ofFn fun e : Entry => if e ∈ o.selection then false else o.saturated[e]
    cursor := match o.selection.getLast? with
      | some e => e + 1
      | none => o.cursor
    zeroList := o.zeroList.drop Config.zerosPerFrame
    freeze := false
    leave := o.leave && !member
    flightDeltas := o.deltasTaken
    flightZeros := o.zerosTaken
    flightFreeze := o.freeze
    flightLeave := o.leaveTaken member }

/-- The in-flight table emptied. -/
def Outbox.emptyFlight (o : Outbox) : Outbox :=
  { o with flightDeltas := [], flightZeros := [], flightFreeze := false, flightLeave := false }

/-- Whether anything is in flight. -/
def Outbox.flightEmpty (o : Outbox) : Bool :=
  o.flightDeltas.isEmpty && o.flightZeros.isEmpty && !o.flightFreeze && !o.flightLeave

/-- Retirement: the in-flight contents are removed; a granted LEAVE also clears the leave flag (R69). -/
def Outbox.retire (o : Outbox) : Outbox :=
  { o.emptyFlight with leave := o.leave && !o.flightLeave }

/-- A ZERO_DONE notice (R69). -/
def zeroDoneNotice (cs : Option Half) (e : Entry) : Notice :=
  { kind := .zeroDone, cs := cs, subject := some (BitVec.ofNat 8 e.val), value := none }

/-- Return: the deltas in frame order back to pending, the zeros back to the head of the list, the flags back
to the requested flags (R70). -/
def Outbox.giveBack (cs : Option Half) (o : Outbox) : Outbox × List Notice :=
  let added := o.flightDeltas.foldl (fun on d => Outbox.addNoting cs on d.entry d.amount.toInt) (o, [])
  ({ added.1.emptyFlight with
      zeroList := o.flightZeros ++ o.zeroList
      freeze := o.freeze || o.flightFreeze
      leave := o.leave || o.flightLeave }, added.2)

/-- A local count, passage or ADJUST added to the pending table (R62, R63). -/
def State.addPending (s : State) (e : Entry) (amount : Int) : State :=
  let added := Outbox.addNoting s.noticeCs (s.outbox, []) e amount
  { s with outbox := added.1 }.postAll added.2

/-- The amount of a map added to its entry; a map that names none adds nothing (R110, R117). -/
def State.addMap (s : State) (map : CountMap) : State :=
  match map.entry with
  | some e => s.addPending e map.amount
  | none => s

/-- The amount in flight for an entry, or 0 (R77). -/
def Outbox.inFlight (o : Outbox) (e : Entry) : Int :=
  match o.flightDeltas.find? fun d => d.entry == e with
  | some d => d.amount.toInt
  | none => 0

end Sys2Proof.Machine
end

