-- ==== Sys2Proof/Machine/Frames.lean ====
section
/-! DEFINITION. Frames: the layout on LDATA, composition, parsing, validity and the comparisons of an
objecting station (Chapter 3, Table 12-1). -/

namespace Sys2Proof.Machine

/-- The bits of a frame from the station field to the carry value, in the order of Table 12-1 (R47). -/
def Frame.body (f : Frame) : List Bool :=
  bitsOf f.station ++ bitsOf f.cs ++ bitsOf f.digest ++ bitsOf f.check ++ [f.join, f.freeze, f.leave] ++
  bitsOf (BitVec.ofNat 2 f.zeros.length) ++
  f.zeros.flatMap (fun e => bitsOf (BitVec.ofNat 5 e.val)) ++
  bitsOf (BitVec.ofNat 4 f.deltas.length) ++
  f.deltas.flatMap (fun d => bitsOf (BitVec.ofNat 5 d.entry.val) ++ bitsOf d.amount) ++
  bitsOf (BitVec.ofNat 5 f.carryIndex.val) ++ bitsOf f.carryValue

/-- The frame with its frame check computed over its body (R47). -/
def Frame.sealed (f : Frame) : Frame := { f with frameCheck := crc16 f.body }

/-- The levels of a slot in which a frame is sent: the presence bit low, the body, the frame check (R52). -/
def Frame.levels (f : Frame) : List Level :=
  .low :: (f.body ++ bitsOf f.frameCheck).map Level.ofBit

/-- The level of position `position` of a frame, counted from 1; past its end the line is released. -/
def Frame.levelAt (f : Frame) (position : Nat) : Level := (f.levels[position - 1]?).getD .high

/-- The zero count as read, in bits 49 and 50 (R35). -/
def zeroCountRead (bits : List Bool) : Nat := bitField bits 49 2

/-- The delta count as read, in the four bits after the zero indices (R35). -/
def deltaCountRead (bits : List Bool) : Nat := bitField bits (51 + 5 * zeroCountRead bits) 4

/-- The length of a present slot, known once bit 54 + 5 × z has been sampled (R35). -/
def slotLengthRead (bits : List Bool) : Option Nat :=
  if bits.length < 50 then none
  else if bits.length < 54 + 5 * zeroCountRead bits then none
  else some (99 + 5 * zeroCountRead bits + 17 * deltaCountRead bits)

/-- An entry number as read. -/
def entryField (bits : List Bool) (position : Nat) : Entry := Fin.ofNat 32 (bitField bits position 5)

/-- A frame as read from the bits of its slot, by the positions of Table 12-1. -/
def Frame.parse (bits : List Bool) : Frame :=
  let z := zeroCountRead bits
  let d := deltaCountRead bits
  { station := BitVec.ofNat 4 (bitField bits 2 4)
    cs := BitVec.ofNat 16 (bitField bits 6 16)
    digest := BitVec.ofNat 8 (bitField bits 22 8)
    check := BitVec.ofNat 16 (bitField bits 30 16)
    join := decide (bitField bits 46 1 = 1)
    freeze := decide (bitField bits 47 1 = 1)
    leave := decide (bitField bits 48 1 = 1)
    zeros := (List.range z).map fun i => entryField bits (51 + 5 * i)
    deltas := (List.range d).map fun j =>
      { entry := entryField bits (55 + 5 * z + 17 * j)
        amount := BitVec.ofNat 12 (bitField bits (60 + 5 * z + 17 * j) 12) }
    carryIndex := entryField bits (55 + 5 * z + 17 * d)
    carryValue := BitVec.ofNat 24 (bitField bits (60 + 5 * z + 17 * d) 24)
    frameCheck := BitVec.ofNat 16 (bitField bits (84 + 5 * z + 17 * d) 16) }

/-- The bits that the frame check covers: every bit after the presence bit up to the carry value (R47). -/
def coveredBits (bits : List Bool) : List Bool :=
  (bits.drop 1).take (82 + 5 * zeroCountRead bits + 17 * deltaCountRead bits)

/-- Whether a carry value lies within the entry's range (R47). -/
def carryInRange (m : Record) (e : Entry) (value : Tally) : Bool :=
  match m.kind e with
  | .level => decide (value ≤ m.ceiling e)
  | .count => true
  | .off => false

/-- Conditions 2 to 8 of R57 on the fields as read. -/
def Frame.fieldsValid (m : Record) (slot : Nat) (f : Frame) : Bool :=
  decide (f.station.toNat = slot) &&
  decide (f.zeros.length ≤ 2) && decide (f.deltas.length ≤ 8) &&
  f.deltas.all (fun d => decide (d.amount ≠ 0x800)) &&
  f.zeros.all (fun e => decide (m.kind e ≠ .off)) &&
  f.deltas.all (fun d => decide (m.kind d.entry ≠ .off)) &&
  decide (m.kind f.carryIndex ≠ .off) &&
  carryInRange m f.carryIndex f.carryValue &&
  decide f.zeros.Nodup && decide (f.deltas.map fun d => d.entry).Nodup

/-- The reception result of a present slot that the station received (R56, R57, R58). -/
def receive (m : Record) (digest : Byte) (slot : Nat) (bits : List Bool) : SlotResult :=
  let f := Frame.parse bits
  if f.frameCheck = crc16 (coveredBits bits) ∧ f.fieldsValid m slot = true then
    .valid f (decide (f.digest ≠ digest))
  else .invalid

/-- The comparisons that failed: 1 for the commit serial, 2 for the replica check, 4 for the carried value (R60). -/
def comparisonsFailed (m : Record) (r : Replica) (f : Frame) : Nat :=
  (if f.cs = r.cs then 0 else 1) + (if f.check = replicaCheck m r then 0 else 2) +
  (if f.carryValue = readValue m r f.carryIndex then 0 else 4)

/-- Whether a reception result makes a transmitting station object (R59). -/
def objectsTo (m : Record) (r : Replica) : SlotResult → Bool
  | .invalid => true
  | .valid _ true => true
  | .valid f false => decide (comparisonsFailed m r f ≠ 0)
  | .silent => false
  | .own collided => collided

/-- The frame that a station in JOINING or MEMBER composes (R49, R50, R51). -/
def State.composedFrame (s : State) : Frame :=
  let m := s.settings
  let member := decide (s.member.state = .member)
  Frame.sealed
    { station := BitVec.ofNat 4 m.stationNumber
      cs := s.replica.cs
      digest := s.setup.digest
      check := replicaCheck m s.replica
      join := decide (s.member.state = .joining)
      freeze := s.outbox.freeze
      leave := s.outbox.leaveTaken member
      zeros := s.outbox.zerosTaken
      deltas := s.outbox.deltasTaken
      carryIndex := s.member.cursor
      carryValue := readValue m s.replica s.member.cursor
      frameCheck := 0 }

end Sys2Proof.Machine
end

