-- ==== Sys2Proof/Machine/Watches.lean ====
section
/-! DEFINITION. The Watch unit, the Output driver and the Snapshot queue (Chapters 8 and 9). -/

namespace Sys2Proof.Machine

/-- The evaluation of one watched entry after a commit (R125). -/
def evaluateWatch (before : Watch) (value high low : Tally) : Watch :=
  match before with
  | .below => if high ≤ value then .above else .below
  | .above => if value ≤ low then .below else .above

/-- The watch state set silently from a value when validity is gained (R124). -/
def silentWatch (value high : Tally) : Watch := if high ≤ value then .above else .below

/-- The watch states after a commit (R125). -/
def evaluateWatches (m : Record) (r : Replica) (before : Vector Watch 32) : Vector Watch 32 :=
  Vector.ofFn fun e : Entry =>
    if m.watched e then evaluateWatch before[e] (readValue m r e) (m.watchHigh e) (m.watchLow e)
    else before[e]

/-- The watch states set silently from the values (R124). -/
def silentWatches (m : Record) (r : Replica) (before : Vector Watch 32) : Vector Watch 32 :=
  Vector.ofFn fun e : Entry =>
    if m.watched e then silentWatch (readValue m r e) (m.watchHigh e) else before[e]

/-- The notice of one transition: LIMIT_REACHED or LIMIT_CLEARED with the entry and its final value (R126). -/
def limitNotice (cs : Option Half) (e : Entry) (after : Watch) (value : Tally) : Notice :=
  { kind := match after with
      | .above => .limitReached
      | .below => .limitCleared
    cs := cs, subject := some (BitVec.ofNat 8 e.val), value := some value }

/-- The limit notices of a commit in ascending entry order (R126). -/
def limitNotices (m : Record) (r : Replica) (cs : Option Half) (before after : Vector Watch 32) :
    List Notice :=
  (List.finRange 32).filterMap fun e : Entry =>
    if before[e] = after[e] then none else some (limitNotice cs e after[e] (readValue m r e))

/-- The level of an output that is on: the other level than its safe level (R127). -/
def onLevel (m : Record) (o : Fin 8) : Level := (m.safeLevel o).flip

/-- The level of a WATCH output in LEVEL or LEVEL_INVERTED mode for a watch state; a pulse output is off (R129,
R132). -/
def levelFor (m : Record) (o : Fin 8) (w : Watch) : Level :=
  match m.outputMode o, w with
  | .level, .above => onLevel m o
  | .levelInverted, .below => onLevel m o
  | .level, .below => m.safeLevel o
  | .levelInverted, .above => m.safeLevel o
  | .pulseOnReach, _ => m.safeLevel o
  | .pulseOnClear, _ => m.safeLevel o
  | .pulseBoth, _ => m.safeLevel o

/-- Whether a transition into a watch state is a trigger of a mode (R130). -/
def triggers (mode : OutputMode) (after : Watch) : Bool :=
  match mode, after with
  | .pulseOnReach, .above => true
  | .pulseOnClear, .below => true
  | .pulseBoth, _ => true
  | _, _ => false

/-- Whether an output in this mode follows the watch state rather than its transitions (R129). -/
def OutputMode.followsLevel : OutputMode → Bool
  | .level | .levelInverted => true
  | .pulseOnReach | .pulseOnClear | .pulseBoth => false

/-- An output after a transition of its watched entry: a level output takes the level of the new state; a
trigger drives a pulse output on and starts or restarts its timer (R129, R130). -/
def outputOnTransition (m : Record) (o : Fin 8) (after : Watch) (out : Output) : Output :=
  if (m.outputMode o).followsLevel then { out with level := levelFor m o after }
  else if triggers (m.outputMode o) after then
    { out with level := onLevel m o, pulse := some (m.pulseWidth o) }
  else out

/-- The outputs after the evaluation of a commit (R125, R129, R130). -/
def outputsAfterCommit (m : Record) (before after : Vector Watch 32) (outs : Vector Output 8) :
    Vector Output 8 :=
  Vector.ofFn fun o : Fin 8 =>
    let e := m.outputEntry o
    if m.outputSource o = .watch ∧ before[e] ≠ after[e] then outputOnTransition m o after[e] outs[o]
    else outs[o]

/-- The outputs when validity is lost: every WATCH output at its safe level, every pulse cancelled (R131). -/
def outputsWithoutValidity (m : Record) (outs : Vector Output 8) : Vector Output 8 :=
  Vector.ofFn fun o : Fin 8 =>
    if m.outputSource o = .watch then { outs[o] with level := m.safeLevel o, pulse := none }
    else { outs[o] with pulse := none }

/-- The outputs when validity is gained: level outputs from the watch states, pulse outputs off (R132). -/
def outputsWithValidity (m : Record) (watches : Vector Watch 32) (outs : Vector Output 8) :
    Vector Output 8 :=
  Vector.ofFn fun o : Fin 8 =>
    if m.outputSource o = .watch then { outs[o] with level := levelFor m o watches[m.outputEntry o] }
    else outs[o]

/-- The outputs at an accepted SETUP_COMMIT: each at its committed safe level, the latch kept for a LOCAL
output at that level and dropped for any other (R127). -/
def outputsAtCommit (m : Record) (outs : Vector Output 8) : Vector Output 8 :=
  Vector.ofFn fun o : Fin 8 =>
    { outs[o] with
      level := m.safeLevel o
      latch := if m.outputSource o = .local then some (m.safeLevel o) else none }

/-- The station's replica stops being valid, as the Output driver sees it (R131). -/
def State.loseValidity (s : State) : State :=
  { s with outputs := outputsWithoutValidity s.settings s.outputs }

/-- The station's replica becomes valid, as the Watch unit and the Output driver see it (R124, R132). -/
def State.gainValidity (s : State) : State :=
  let watches := silentWatches s.settings s.replica s.watches
  { s with watches := watches, outputs := outputsWithValidity s.settings watches s.outputs }

/-- The station numbers whose present frame carried FREEZE in a round (R136). A frame received as VALID
counts whatever its digest, as R58 bars a foreign one from the Replica alone; the own frame counts by the in-flight
FREEZE. -/
def freezeRequesters (results : List SlotResult) (ownFreeze : Bool) (presence : List Bool) : List Nat :=
  (results.zipIdx).filterMap fun (result, slot) =>
    if presence[slot]? = some true then
      match result with
      | .valid f _ => if f.freeze then some slot else none
      | .own _ => if ownFreeze then some slot else none
      | .silent | .invalid => none
    else none

/-- The 32 values of a snapshot; an OFF entry holds 0 (Table 9-1). -/
def snapshotValues (m : Record) (r : Replica) : Vector Tally 32 := Vector.ofFn fun e => readValue m r e

/-- A SNAPSHOT_TAKEN or SNAPSHOT_DROPPED notice (R137). -/
def snapshotNotice (stored : Bool) (snapshot : Snapshot) : Notice :=
  { kind := if stored then .snapshotTaken else .snapshotDropped
    cs := some snapshot.cs, subject := none, value := some (snapshot.requesters.setWidth 24) }

/-- A snapshot stored while fewer than 4 records are held, else dropped, with its notice (R137). -/
def storeSnapshot (queue : List Snapshot) (snapshot : Snapshot) : List Snapshot × Notice :=
  if queue.length < Config.snapshotDepth then (queue ++ [snapshot], snapshotNotice true snapshot)
  else (queue, snapshotNotice false snapshot)

end Sys2Proof.Machine
end

