-- ==== Sys2Proof/Machine/Ops.lean ====
section
/-! DEFINITION. The operations that several commands share: link controller entries, the entries of the station
states and their notices, collisions, the round timer's composition, and aborts (Chapters 2, 3 and 5). -/

namespace Sys2Proof.Machine

/-- The Link controller enters OFF: every line released, every timer stopped, the stalled flag cleared, the slot
state at its reset values (R24). -/
def Link.enterOff (l : Link) : Link := { Link.reset with lbeat := l.lbeat }

/-- The Link controller holds LMARK, releases LBEAT and LDATA, stops the BEAT stuck timer, starts the round
timer with I and enters HOLD (R25, R26, R39, R42). -/
def Link.enterHold (l : Link) (interval : Nat) : Link :=
  { l with
    state := .hold, roundTimer := some interval, stuckTimer := none, half := .stopped
    holdLmark := true, holdLbeat := false, holdLdata := false }

/-- The Link controller leaves OFF for SYNC: with LMARK low it holds LMARK at once and enters HOLD; with LMARK
high it starts the quiet time (R25, R26). -/
def Link.enterSync (l : Link) (m : Record) (lmark lbeat : Level) : Link :=
  match lmark with
  | .low => { l.enterHold m.roundInterval with lbeat := lbeat }
  | .high => { l with state := .sync, roundTimer := some m.quietTime, lbeat := lbeat }

/-- The Link controller enters SLOTS at the LMARK rise: position, bit count, presence set and verdict bits at
their start, the BEAT stuck timer started, the wait h before the first hold begun (R28, R29, R41). -/
def Link.enterSlots (l : Link) (m : Record) : Link :=
  { l with
    state := .slots, stallTimer := none, stalled := false, stuckTimer := some m.stuckLimit
    half := .beforeHold, slot := 0, bit := 0, slotLength := none, bitCount := 0, presence := []
    verdicts := [], lbeat := .high }

/-- What the Frame unit discards at an abort (R42, R44). -/
def FrameUnit.afterAbort (f : FrameUnit) : FrameUnit :=
  { f with sending := none, readback := [], receiving := [], results := [], collided := false }

/-- What the Frame unit discards on entry to OFF; the strike flag stays (R44, R54). That the objection decision is
not object from there on is the spec's for FAULT (R59) and the model's choice for PARKED and INCOMPATIBLE (entry 32). -/
def FrameUnit.afterOff (f : FrameUnit) : FrameUnit := { FrameUnit.reset with strike := f.strike }

/-- What the Frame unit clears on entry to SLOTS; the frame being sent stays (R44). -/
def FrameUnit.enterSlots (f : FrameUnit) : FrameUnit :=
  { f with readback := [], receiving := [], results := [], collided := false, object := false }

/-- The station's Link controller enters OFF, and the Frame unit discards what it holds (R24, R44). -/
def State.linkOff (s : State) : State := { s with link := s.link.enterOff, frame := s.frame.afterOff }

/-- A STATE_CHANGED notice: the cause, the state left and the state entered, and the CS given (R79). -/
def stateChangedNotice (cs : Option Half) (cause : Cause) (left entered : StationState) : Notice :=
  { kind := .stateChanged, cs := cs, subject := some cause.code
    value := some (tallyOfBytes 0 left.code entered.code) }

/-- STATE_CHANGED posted once a change has been made; its CS is the one after the change (R79). -/
def State.postChange (s : State) (cause : Cause) (left : StationState) : State :=
  s.post (stateChangedNotice s.noticeCs cause left s.member.state)

/-- Entry to LISTEN: streak and silence count 0, roster ABSENT and fresh, strike flag clear (R82). -/
def Membership.enterListen (c : Membership) : Membership :=
  { c with state := .listen, streak := 0, silence := 0, roster := Vector.replicate 16 .absent, fresh := true }

/-- Entry to LISTEN in one event: R82, the discard of the replica with the watch states at BELOW (R19, R124), and
the WATCH outputs at their safe levels (R131). -/
def State.enterListen (s : State) : State :=
  { s with
    member := s.member.enterListen
    replica := Replica.empty
    watches := Vector.replicate 32 .below
    frame := { s.frame with strike := false }
    outputs := outputsWithoutValidity s.settings s.outputs }

/-- Entry to PARKED, INCOMPATIBLE or FAULT: the replica is kept and marked stale, validity is lost, the Link
controller goes to OFF (R20, R24, R131). -/
def State.enterStale (s : State) (entered : StationState) : State :=
  State.linkOff { s with
    member := { s.member with state := entered }
    replica := { s.replica with stale := true }
    outputs := outputsWithoutValidity s.settings s.outputs }

/-- The first non-OFF entry at or after an entry, wrapping from 31 to 0 (R86). -/
def Record.nextUsed (m : Record) (start : Entry) : Entry :=
  ((entriesFrom start).find? fun e => decide (m.kind e ≠ .off)).getD start

/-- The carry cursor on entry to JOINING and at founding: from the station's own number on (R86). -/
def Record.firstCarry (m : Record) : Entry := m.nextUsed (Fin.ofNat 32 m.stationNumber)

/-- Entry to JOINING at the end of catch-up (R85, R86, R124, R132). -/
def State.enterJoining (s : State) : State :=
  State.gainValidity { s with
    member := { s.member with state := .joining, cursor := s.settings.firstCarry } }

/-- Founding: the table from the presets, the silence count 0, the cursor set, the station in MEMBER (R18, R88). -/
def State.foundTable (s : State) : State :=
  State.gainValidity { s with
    replica := s.replica.found s.settings
    member := { s.member with state := .member, silence := 0, cursor := s.settings.firstCarry } }

/-- A change of station state made at a round close, with its notice (R79, R80, Table 5-4). -/
def State.changeAtClose (s : State) (cause : Cause) : State :=
  let left := s.member.state
  match cause with
  | .caughtUp => s.enterJoining.postChange cause left
  | .founded => s.foundTable.postChange cause left
  | .joined => State.postChange { s with member := { s.member with state := .member } } cause left
  | .withdrawn => s.enterListen.postChange cause left
  | .foreignDigest => (s.enterStale .incompatible).postChange cause left
  | .left => (s.enterStale .parked).postChange cause left
  | .setupCommitted | .rejoined | .duplicateNumber => s

/-- Whether the station transmits in the round: it composed a frame (R33). -/
def State.transmits (s : State) : Bool := s.frame.sending.isSome

/-- Whether the current slot is the one in which the station transmits (R36, R56). -/
def State.inOwnSlot (s : State) : Bool := s.transmits && decide (s.link.slot = s.settings.stationNumber)

/-- A COLLISION notice: the own number and the position of the collided bit (R53). -/
def State.collisionNotice (s : State) (position : Nat) : Notice :=
  { kind := .collision, cs := s.noticeCs, subject := some (BitVec.ofNat 8 s.settings.stationNumber)
    value := some (BitVec.ofNat 24 position) }

/-- The change to FAULT at a collision while the strike flag is set: the in-flight contents returned, the
replica stale, the link OFF, STATE_CHANGED posted (R54, R72, R96). -/
def State.enterFault (s : State) : State :=
  let back := s.outbox.giveBack s.noticeCs
  (({ s with outbox := back.1 }.postAll back.2).enterStale .fault).postChange .duplicateNumber s.member.state

/-- The first collided bit of the own slot: LDATA released, COLLISION posted, the result marked; a first strike
sets the flag and objects, a second goes to FAULT (R53, R54). -/
def State.takeCollision (s : State) (position : Nat) : State :=
  let posted := s.post (s.collisionNotice position)
  if s.frame.strike then posted.enterFault
  else { posted with
    link := { posted.link with holdLdata := false }
    frame := { posted.frame with collided := true, strike := true, object := true } }

/-- Whether the level sampled contradicts what the station drove for the bit (R52). -/
def Link.collides (l : Link) (ldata : Level) : Bool :=
  if l.holdLdata then decide (ldata = .high) else decide (ldata = .low)

/-- Whether the station holds LDATA for the next bit: a low bit of its own frame before any collision, or its own
verdict bit when it objects (R31, R36, R37, R53). -/
def State.holdsNextBit (s : State) : Bool :=
  match s.link.state, s.frame.sending with
  | .slots, some f =>
    decide (s.link.slot = s.settings.stationNumber) && !s.frame.collided &&
      decide (f.levelAt (s.link.bit + 1) = .low)
  | .verdict, some _ => decide (s.link.verdicts.length = s.settings.stationNumber) && s.frame.object
  | _, _ => false

/-- Whether the Link controller is in SLOTS or VERDICT, where it drives LBEAT (R29). -/
def Link.inRound (l : Link) : Bool := decide (l.state = .slots) || decide (l.state = .verdict)

/-- Whether a rise of LBEAT can reach the station: in a round, LBEAT low, and its own hold released (R22, R29). -/
def Link.riseCanCome (l : Link) : Bool := l.inRound && decide (l.lbeat = .low) && !l.holdLbeat

/-- A rise of LBEAT taken: one bit counted, the wait h before the next hold begun, the BEAT stuck timer restarted
(R29, R41). -/
def Link.takeRise (l : Link) (m : Record) : Link :=
  { l with lbeat := .high, half := .beforeHold, stuckTimer := some m.stuckLimit, bitCount := l.bitCount + 1 }

/-- Whether the bit to be sampled next is verdict bit N - 1 (R38). -/
def State.atLastVerdict (s : State) : Bool :=
  decide (s.link.state = .verdict) && decide (s.settings.clusterSize ≤ s.link.verdicts.length + 1)

/-- A DIVERGED notice: the sender and the comparisons that failed (R60). -/
def divergedNotice (cs : Option Half) (slot failed : Nat) : Notice :=
  { kind := .diverged, cs := cs, subject := some (BitVec.ofNat 8 slot), value := some (BitVec.ofNat 24 failed) }

/-- The DIVERGED notice that a reception result calls for, if any (R60). -/
def State.divergence (s : State) (result : SlotResult) : List Notice :=
  match result with
  | .valid f false =>
    let failed := comparisonsFailed s.settings s.replica f
    if s.transmits && decide (failed ≠ 0) then [divergedNotice s.noticeCs s.link.slot failed] else []
  | .valid _ true | .silent | .own _ | .invalid => []

/-- The position after the last bit of a slot: the next slot, or VERDICT after slot N - 1 (R34). -/
def Link.afterSlot (l : Link) (m : Record) : Link :=
  if l.slot + 1 < m.clusterSize then { l with slot := l.slot + 1, bit := 0, slotLength := none }
  else { l with state := .verdict }

/-- The end of a slot: the result recorded, the objection decided, DIVERGED posted, the position moved on
(R34, R52, R56, R59, R60). -/
def State.endSlot (s : State) (result : SlotResult) : State :=
  let posted := s.postAll (s.divergence result)
  { posted with
    link := s.link.afterSlot s.settings
    frame := { s.frame with
      results := s.frame.results ++ [result]
      object := s.frame.object || (s.transmits && objectsTo s.settings s.replica result) } }

/-- The bits of the current slot with one more sampled; a presence bit starts them afresh (R52, R56). -/
def State.slotBits (s : State) (ldata : Level) : List Level :=
  if s.link.bit = 0 then [ldata]
  else (if s.inOwnSlot then s.frame.readback else s.frame.receiving) ++ [ldata]

/-- The length of the current slot once one more bit is sampled: as known already, or as the counts now read give
it; a presence bit begins a slot whose length is not known (R35). -/
def State.lengthAfter (s : State) (ldata : Level) : Option Nat :=
  if s.link.bit = 0 then none
  else match s.link.slotLength with
    | some length => some length
    | none => slotLengthRead ((s.slotBits ldata).map Level.bit)

/-- Whether the bit sampled is the last of a present slot (R35). -/
def State.endsPresentSlot (s : State) (ldata : Level) : Bool :=
  decide (s.link.state = .slots) && decide (s.lengthAfter ldata = some (s.link.bit + 1))

/-- One bit of a slot recorded: in the readback or in the frame being received, in the presence set for a
presence bit, and in the slot position (R34, R35, R52, R56). -/
def State.recordBit (s : State) (ldata : Level) : State :=
  let bits := s.slotBits ldata
  { s with
    frame := if s.inOwnSlot then { s.frame with readback := bits } else { s.frame with receiving := bits }
    link := { s.link with
      bit := s.link.bit + 1
      slotLength := s.lengthAfter ldata
      presence := if s.link.bit = 0 then s.link.presence ++ [decide (ldata = .low)] else s.link.presence } }

/-- The result of the slot that the bit just recorded has ended, if it has ended one (R34, R35, R52, R56). -/
def State.slotEnded (s : State) : Option SlotResult :=
  if s.link.bit = 1 ∧ s.link.presence.getLast? = some false then
    some (if s.inOwnSlot then .own s.frame.collided else .silent)
  else if s.link.slotLength = some s.link.bit then
    some (if s.inOwnSlot then .own s.frame.collided
      else receive s.settings s.setup.digest s.link.slot (s.frame.receiving.map Level.bit))
  else none

/-- Whether the bit sampled in the own slot is the first collided one (R52, R53). -/
def State.firstCollision (s : State) (ldata : Level) : Bool :=
  s.inOwnSlot && !s.frame.collided && s.link.collides ldata

/-- One bit of a slot sampled: recorded, compared with the own drive, and the slot ended with its last bit
(R29, R34, R52, R53, R56). -/
def State.sampleSlotBit (s : State) (ldata : Level) : State :=
  let recorded := s.recordBit ldata
  let compared :=
    if s.firstCollision ldata then recorded.takeCollision recorded.link.bit else recorded
  if compared.link.state = .off then compared
  else match compared.slotEnded with
    | some result => compared.endSlot result
    | none => compared

/-- A rise of LBEAT with the level of LDATA it samples: a slot bit or a verdict bit (R29, R34, R37). -/
def State.takeRise (s : State) (ldata : Level) : State :=
  let risen := { s with link := s.link.takeRise s.settings }
  if s.link.state = .slots then risen.sampleSlotBit ldata
  else { risen with link := { risen.link with verdicts := risen.link.verdicts ++ [ldata] } }

/-- A ROUND_ABORTED notice with the bit count (R42). -/
def State.abortedNotice (s : State) : Notice :=
  { kind := .roundAborted, cs := s.noticeCs, subject := none, value := some (BitVec.ofNat 24 s.link.bitCount) }

/-- The station aborts the round (R42, R44, R71). The notices of the Link controller and of the Outbox enter in
the order given (entry 11). -/
def State.abortRound (s : State) (order : List NoticeBlock) : State :=
  let back := s.outbox.giveBack s.noticeCs
  State.postAll { s with
    link := s.link.enterHold s.settings.roundInterval
    frame := s.frame.afterAbort
    outbox := back.1 } (Posts.inOrder order { link := [s.abortedNotice], outbox := back.2 })

/-- Every block at its reset value, the setup record and the outputs' safe levels given; the queue, TSEL, the
clock format and the recorded cause stay (Tables 1-2 to 11-1, R161, entries 2, 18 and 19). -/
def State.blocksReset (s : State) (record : Record) (kind : ResetKind) : State :=
  { State.reset with
    pending := s.pending
    resetting := some kind
    setup := { record := record, committed := false, digest := 0, failure := 0xFFFF, cause := s.setup.cause }
    outputs := Vector.ofFn fun o : Fin 8 => Output.atReset (record.safeLevel o)
    tap := Tap.reset s.tap.tsel s.tap.fmt1 s.tap.fmt0 }

end Sys2Proof.Machine
end

