-- ==== Sys2Proof/Machine/Rounds.lean ====
section
/-! DEFINITION. The close of a round: the verdict and what each block does with the outcome (R38, R39, R80). -/

namespace Sys2Proof.Machine

/-- The outcome of a round as the Link controller and the Frame unit hand it out (R38, R39). -/
structure RoundOutcome where
  committed : Bool
  anyPresent : Bool
  /-- The station numbers whose slot was present and whose verdict bit was sampled low. -/
  objectors : List Nat
  transmitted : Bool
  ownPresent : Bool
  objected : Bool
  deriving DecidableEq, Repr

/-- Whether a slot is marked present. -/
def slotPresent (presence : List Bool) (slot : Nat) : Bool := presence[slot]? == some true

/-- The objector set of a round (R38). -/
def objectorsOf (n : Nat) (presence : List Bool) (verdicts : List Level) : List Nat :=
  (List.range n).filter fun k => slotPresent presence k && (verdicts[k]? == some .low)

/-- The outcome computed from the presence set and the verdict bits (R38, R39). -/
def State.outcome (s : State) : RoundOutcome :=
  let objectors := objectorsOf s.settings.clusterSize s.link.presence s.link.verdicts
  { committed := objectors.isEmpty
    anyPresent := s.link.presence.any id
    objectors := objectors
    transmitted := s.transmits
    ownPresent := s.transmits && slotPresent s.link.presence s.settings.stationNumber
    objected := s.frame.object }

/-- The business of the present slots in slot order, the own slot's from the in-flight records (R10, R11). -/
def State.roundBusiness (s : State) : List Business :=
  (s.frame.results.zipIdx).filterMap fun (result, slot) =>
    if slotPresent s.link.presence slot then
      match result with
      | .valid f false => some f.business
      | .own _ => some { zeros := s.outbox.flightZeros, deltas := s.outbox.flightDeltas }
      | .valid _ true | .silent | .invalid => none
    else none

/-- Whether a valid frame with a foreign digest was received (R58, R93). -/
def foreignHeard (results : List SlotResult) : Bool :=
  results.any fun result =>
    match result with
    | .valid _ foreign => foreign
    | .silent | .own _ | .invalid => false

/-- Whether one was received from a slot below the station's own number (R94). -/
def foreignBelow (results : List SlotResult) (number : Nat) : Bool := foreignHeard (results.take number)

/-- Whether the round changes the table at a valid replica: committed, with a frame present (R10, R13). -/
def State.appliesRound (s : State) (o : RoundOutcome) : Bool := s.valid && o.committed && o.anyPresent

/-- The replica after the outcome: applied in JOINING and MEMBER, adopted or restarted in LISTEN, unchanged by a
veto, by an all-silent round and by a foreign digest (R10 to R16). -/
def State.replicaAtClose (s : State) (o : RoundOutcome) : Replica × Cuts :=
  if s.appliesRound o then s.replica.applyRound s.settings s.roundBusiness
  else if s.member.state = .listen ∧ o.committed = true ∧ o.anyPresent = true then
    if foreignHeard s.frame.results then (s.replica, [])
    else if s.replica.inDoubt s.frame.results then (Replica.empty, [])
    else (s.replica.adopt s.settings (ownDigestFrames s.frame.results), [])
  else (s.replica, [])

/-- A LEVEL_CLAMPED notice: the entry and the amount cut (R3). -/
def clampedNotice (cs : Option Half) (cut : Entry × Nat) : Notice :=
  { kind := .levelClamped, cs := cs, subject := some (BitVec.ofNat 8 cut.1.val), value := some (BitVec.ofNat 24 cut.2) }

/-- A ROUND_VETOED notice with the objector set (R70). -/
def vetoedNotice (cs : Option Half) (objectors : List Nat) : Notice :=
  { kind := .roundVetoed, cs := cs, subject := none, value := some ((stationSet objectors).setWidth 24) }

/-- The Outbox after the outcome, with its notices: retirement, return, or nothing (R69, R70). -/
def State.outboxAtClose (s : State) (o : RoundOutcome) (cs : Option Half) : Outbox × List Notice :=
  if o.ownPresent then
    if o.committed then (s.outbox.retire, s.outbox.flightZeros.map (zeroDoneNotice cs))
    else
      let back := s.outbox.giveBack cs
      (back.1, vetoedNotice cs o.objectors :: back.2)
  else if o.transmitted then s.outbox.giveBack cs
  else (s.outbox, [])

/-- The mark of a slot after a completed round (R100); slots numbered N or above stay ABSENT (R158). The own slot of a
station that transmitted is SELF also when its presence bit was read back high, where R100 gives ABSENT as well (the
model's choice, entry 33). -/
def markOf (m : Record) (transmitted : Bool) (presence : List Bool) (slot : Nat) : Mark :=
  if m.clusterSize ≤ slot then .absent
  else if slot = m.stationNumber ∧ transmitted = true then .self
  else if slotPresent presence slot then .present
  else .absent

/-- The roster after a completed round (R100). -/
def rosterAtClose (m : Record) (transmitted : Bool) (presence : List Bool) : Vector Mark 16 :=
  Vector.ofFn fun slot : Fin 16 => markOf m transmitted presence slot.val

/-- A STATION_ARRIVED or STATION_DEPARTED notice (R101). -/
def rosterNotice (cs : Option Half) (kind : NoticeKind) (slot : Fin 16) : Notice :=
  { kind := kind, cs := cs, subject := some (BitVec.ofNat 8 slot.val), value := none }

/-- The roster notices in ascending slot order; none when the roster was fresh (R101). -/
def rosterNotices (m : Record) (cs : Option Half) (fresh : Bool) (before after : Vector Mark 16) :
    List Notice :=
  if fresh then []
  else (List.finRange 16).filterMap fun slot : Fin 16 =>
    if slot.val = m.stationNumber then none
    else match before[slot], after[slot] with
      | .absent, .present => some (rosterNotice cs .stationArrived slot)
      | .present, .absent => some (rosterNotice cs .stationDeparted slot)
      | _, _ => none

/-- The silence count after a completed round: counted in LISTEN only (R87). -/
def silenceAtClose (c : Membership) (anyPresent : Bool) : Nat :=
  if c.state = .listen then
    if anyPresent then 0 else min Config.silenceLimit (c.silence + 1)
  else c.silence

/-- The objection streak after a completed round (R91). -/
def streakAtClose (c : Membership) (o : RoundOutcome) : Nat :=
  if o.ownPresent then (if o.objected then c.streak + 1 else 0) else c.streak

/-- The Membership controller's counts after a completed round, before any change of state (R86, R87, R91, R100). -/
def State.memberAtClose (s : State) (o : RoundOutcome) : Membership :=
  { s.member with
    streak := streakAtClose s.member o
    silence := silenceAtClose s.member o.anyPresent
    roster := rosterAtClose s.settings o.transmitted s.link.presence
    fresh := false
    cursor := if o.committed && o.ownPresent then s.settings.nextUsed (s.member.cursor + 1)
      else s.member.cursor }

/-- The change of station state that a close calls for, from the replica and counts as the close left them; at most
one (R80, R84, R90, R92, R93, R94, R97). -/
def State.changeDue (s : State) (o : RoundOutcome) (r : Replica) (c : Membership) : Option Cause :=
  let m := s.settings
  match s.member.state with
  | .listen =>
    if foreignHeard s.frame.results then some .foreignDigest
    else if o.committed && o.anyPresent && r.complete m then some .caughtUp
    else if decide (m.foundingSilence ≤ c.silence) && m.foundingAllowed then some .founded
    else none
  | .joining =>
    if foreignBelow s.frame.results m.stationNumber then some .foreignDigest
    else if m.objectionLimit ≤ c.streak then some .withdrawn
    else if o.committed && o.ownPresent then some .joined
    else none
  | .member =>
    if foreignBelow s.frame.results m.stationNumber then some .foreignDigest
    else if m.objectionLimit ≤ c.streak then some .withdrawn
    else if o.committed && o.ownPresent && s.outbox.flightLeave then some .left
    else none
  | .setup | .parked | .incompatible | .fault => none

/-- The Frame unit after a close: a transmitting round without a collision clears the strike flag, and the
frame being sent is cleared (R44, R55). -/
def FrameUnit.afterClose (f : FrameUnit) : FrameUnit :=
  { f with sending := none, strike := f.strike && !(f.sending.isSome && !f.collided) }

/-- The requester set of a round's snapshot (R136). -/
def State.requesters (s : State) : List Nat :=
  freezeRequesters s.frame.results s.outbox.flightFreeze s.link.presence

/-- The Snapshot queue after the outcome, with its notice (R136, R137). -/
def State.snapshotAtClose (s : State) (o : RoundOutcome) (r : Replica) : List Snapshot × List Notice :=
  if s.appliesRound o ∧ s.requesters ≠ [] then
    let stored := storeSnapshot s.snapshots
      { cs := r.cs, requesters := stationSet s.requesters, values := snapshotValues s.settings r }
    (stored.1, [stored.2])
  else (s.snapshots, [])

/-- The watch states after the outcome (R125). -/
def State.watchesAtClose (s : State) (o : RoundOutcome) (r : Replica) : Vector Watch 32 :=
  if s.appliesRound o then evaluateWatches s.settings r s.watches else s.watches

/-- The station with the outcome of a round taken by every block, before any change of station state (R39, R80). -/
def State.takeOutcome (s : State) (order : List NoticeBlock) : State :=
  let m := s.settings
  let o := s.outcome
  let applied := s.replicaAtClose o
  let cs := if s.valid then some applied.1.cs else none
  let watches := s.watchesAtClose o applied.1
  let snapshot := s.snapshotAtClose o applied.1
  let outbox := s.outboxAtClose o cs
  let member := s.memberAtClose o
  State.postAll { s with
    link := s.link.enterHold m.roundInterval
    frame := s.frame.afterClose
    replica := applied.1
    watches := watches
    outputs := outputsAfterCommit m s.watches watches s.outputs
    snapshots := snapshot.1
    outbox := outbox.1
    member := member }
    (Posts.inOrder order
      { replica := applied.2.map (clampedNotice cs)
        watch := limitNotices m applied.1 cs s.watches watches
        snapshot := snapshot.2
        outbox := outbox.2
        membership := rosterNotices m cs s.member.fresh s.member.roster member.roster })

/-- The close of a round at the last verdict edge, its verdict bits complete: the outcome taken by every block,
then the one change of station state that it calls for (R39, R80). -/
def State.closeRound (s : State) (order : List NoticeBlock) : State :=
  let taken := s.takeOutcome order
  match s.changeDue s.outcome taken.replica taken.member with
  | some cause => taken.changeAtClose cause
  | none => taken

end Sys2Proof.Machine
end

