-- ==== Sys2Proof/Machine/Counting.lean ====
section
/-! DEFINITION. Count inputs and passage detectors: the settle filter, single edges, the passage table, and the
meanings of SAMPLE_INSTANT and PASSAGE_TIMER_EXPIRY (Chapters 6 and 7). -/

namespace Sys2Proof.Machine

/-- One sample of a used input: priming at the first, the settle filter after that. The second part tells whether
the filtered level changed (R104, R105). -/
def filterInput (settle : Nat) (input : Input) (sample : Level) : Input × Bool :=
  if !input.primed then ({ primed := true, level := sample, run := 0 }, false)
  else if sample = input.level then ({ input with run := 0 }, false)
  else if input.run + 1 < settle then ({ input with run := input.run + 1 }, false)
  else ({ input with level := sample, run := 0 }, true)

/-- The level of INi in the levels read at one sample instant. -/
def sampledLevel (levels : Byte) (i : Fin 8) : Level := Level.ofBit (levels.getLsbD i.val)

/-- Input i after one sample instant; an UNUSED input is not sampled (R103, R108). -/
def sampleInput (m : Record) (levels : Byte) (i : Fin 8) (input : Input) : Input × Bool :=
  if m.inputMode i = .unused then (input, false)
  else filterInput (m.settleCount i) input (sampledLevel levels i)

/-- Whether the edge select of a single input counts a change to a level (R109, Table 6-5). -/
def countsEdge (select : EdgeSelect) (now : Level) : Bool :=
  match select, now with
  | .rising, .high => true
  | .rising, .low => false
  | .falling, .low => true
  | .falling, .high => false
  | .both, _ => true

/-- The A input of a pair. -/
def pairA (p : Fin 4) : Fin 8 := ⟨2 * p.val, by omega⟩

/-- The B input of a pair. -/
def pairB (p : Fin 4) : Fin 8 := ⟨2 * p.val + 1, by omega⟩

/-- The pair of an input. -/
def pairOf (i : Fin 8) : Fin 4 := ⟨i.val / 2, by omega⟩

/-- Whether a passage detector is in use (R114). -/
def Record.pairInUse (m : Record) (p : Fin 4) : Bool :=
  decide (m.inputMode (pairA p) = .pairA) && decide (m.inputMode (pairB p) = .pairB)

/-- The two inputs of a pair, and whether the input concerned is now blocked (R111). -/
inductive PairChange where
  | aBlocks
  | aClears
  | bBlocks
  | bClears
  deriving DecidableEq, Repr

/-- What a transition hands to the Outbox (R116). -/
inductive Passage where
  | none
  | forward
  | reverse
  deriving DecidableEq, Repr

/-- Table 7-4: the next state and the passage of each event. A cell marked "—" has no entry (R116). -/
def passageTable : PassageState → PairChange → Option (PassageState × Passage)
  | .idle, .aBlocks => some (.a1, .none)
  | .idle, .bBlocks => some (.b1, .none)
  | .a1, .aClears => some (.idle, .none)
  | .a1, .bBlocks => some (.abFwd, .none)
  | .abFwd, .aClears => some (.b2Fwd, .none)
  | .abFwd, .bClears => some (.a1, .none)
  | .b2Fwd, .aBlocks => some (.abFwd, .none)
  | .b2Fwd, .bClears => some (.idle, .forward)
  | .b1, .aBlocks => some (.abRev, .none)
  | .b1, .bClears => some (.idle, .none)
  | .abRev, .aClears => some (.b1, .none)
  | .abRev, .bClears => some (.a2Rev, .none)
  | .a2Rev, .aClears => some (.idle, .reverse)
  | .a2Rev, .bBlocks => some (.abRev, .none)
  | _, _ => none

/-- A detector with the mark of the input concerned set to the reported level (R116, R121). -/
def Detector.mark (d : Detector) : PairChange → Detector
  | .aBlocks => { d with markA := true }
  | .aClears => { d with markA := false }
  | .bBlocks => { d with markB := true }
  | .bClears => { d with markB := false }

/-- The passage timer after a transition: stopped in IDLE and STUCK, started afresh in the six states between, and
never running when the limit is off (R119). -/
def timerIn (limit : Option Nat) : PassageState → Option Nat
  | .idle | .stuck => none
  | .a1 | .abFwd | .b2Fwd | .b1 | .abRev | .a2Rev => limit

/-- One event taken by a detector, with the passage it produces (R116, R119, R121). A change that Table 7-4 marks as
one that cannot reach the detector leaves it as it is (entry 14). -/
def Detector.take (limit : Option Nat) (d : Detector) (change : PairChange) : Detector × Passage :=
  if d.state = .stuck then
    let marked := d.mark change
    (if marked.markA || marked.markB then marked else { marked with state := .idle }, .none)
  else match passageTable d.state change with
    | some (state, passage) => ({ d.mark change with state := state, timer := timerIn limit state }, passage)
    | none => (d, .none)

/-- A detector's first state from the two primed levels: IDLE when both are clear, else STUCK, without a notice
(R115). -/
def Detector.start (blockedA blockedB : Bool) : Detector :=
  { state := if blockedA || blockedB then .stuck else .idle, markA := blockedA, markB := blockedB, timer := none }

/-- The change of a pair input as its detector takes it (R111). -/
def pairChange (isA blocked : Bool) : PairChange :=
  match isA, blocked with
  | true, true => .aBlocks
  | true, false => .aClears
  | false, true => .bBlocks
  | false, false => .bClears

/-- A change of a pair input handed to its detector, and the passage added to the pending table (R111, R117). -/
def State.takePairChange (s : State) (i : Fin 8) (now : Level) : State :=
  let m := s.settings
  let p := pairOf i
  let change := pairChange (decide (m.inputMode i = .pairA)) (decide (now = m.blockedLevel (pairA p)))
  let taken := s.detectors[p].take m.passageLimit change
  let moved := { s with detectors := s.detectors.set p taken.1 }
  match taken.2 with
  | .none => moved
  | .forward => moved.addMap (m.firstMap (pairA p))
  | .reverse => moved.addMap (m.secondMap (pairA p))

/-- The event of one input whose filtered level has changed, by its mode (R107, R109, R110, R111). -/
def State.takeInputEvent (s : State) (i : Fin 8) : State :=
  let now := s.inputs.inputs[i].level
  match s.settings.inputMode i with
  | .single => if countsEdge (s.settings.edgeSelect i) now then s.addMap (s.settings.firstMap i) else s
  | .pairA | .pairB => s.takePairChange i now
  | .unused => s

/-- The inputs in the order in which their events are taken: as the world gives it, each once, then the rest in
ascending order (R107, R118, entry 10). -/
def eventOrder (order : List (Fin 8)) : List (Fin 8) :=
  order.dedup ++ (List.finRange 8).filter fun i => decide (i ∉ order)

/-- The inputs after the samples of one instant, before any event is taken. -/
def State.sampled (s : State) (levels : Byte) : Vector Input 8 :=
  Vector.ofFn fun i : Fin 8 => (sampleInput s.settings levels i s.inputs.inputs[i]).1

/-- Whether an input's filtered level changes at a sample instant (R105). -/
def State.changesAt (s : State) (levels : Byte) (i : Fin 8) : Bool :=
  (sampleInput s.settings levels i s.inputs.inputs[i]).2

/-- The detectors after priming: a detector in use whose A input is primed at this instant takes its first state from
the two primed levels (R115). -/
def State.startedDetectors (s : State) (levels : Byte) : Vector Detector 4 :=
  Vector.ofFn fun p : Fin 4 =>
    if s.settings.pairInUse p && !s.inputs.inputs[pairA p].primed then
      let blocked := s.settings.blockedLevel (pairA p)
      Detector.start (decide (sampledLevel levels (pairA p) = blocked)) (decide (sampledLevel levels (pairB p) = blocked))
    else s.detectors[p]

/-- One sample instant: every used input sampled, primed or filtered, then the events taken one by one (R103 to
R111, R115). -/
def State.takeSamples (s : State) (levels : Byte) (order : List (Fin 8)) : State :=
  let read := { s with
    inputs := { s.inputs with inputs := s.sampled levels }
    detectors := s.startedDetectors levels }
  ((eventOrder order).filter (s.changesAt levels)).foldl State.takeInputEvent read

/-- SAMPLE_INSTANT (R103): it comes only while the sample clock runs. -/
def execSampleInstant (levels : Byte) (order : List (Fin 8)) (s : State) : Host.Outcome State Fault Refusal :=
  if s.inputs.clock then .next (s.takeSamples levels order) else .next s

/-- A PASSAGE_STUCK notice (R120). -/
def passageStuckNotice (cs : Option Half) (pair : Fin 4) : Notice :=
  { kind := .passageStuck, cs := cs, subject := some (BitVec.ofNat 8 pair.val), value := none }

/-- PASSAGE_TIMER_EXPIRY (R120): the detector enters STUCK with its marks kept, and PASSAGE_STUCK is posted. It comes
only while the timer runs. -/
def execPassageTimerExpiry (pair : Fin 4) (s : State) : Host.Outcome State Fault Refusal :=
  if s.detectors[pair].timer.isSome then
    .next (State.post { s with
      detectors := s.detectors.set pair { s.detectors[pair] with state := .stuck, timer := none } }
      (passageStuckNotice s.noticeCs pair))
  else .next s

/-- PULSE_TIMER_EXPIRY (R130): the output is driven off and its timer stops. It comes only while the timer runs. -/
def execPulseTimerExpiry (output : Fin 8) (s : State) : Host.Outcome State Fault Refusal :=
  if s.outputs[output].pulse.isSome then
    .next { s with
      outputs := s.outputs.set output
        { s.outputs[output] with level := s.settings.safeLevel output, pulse := none } }
  else .next s

end Sys2Proof.Machine
end

