-- ==== Sys2Proof/Machine/LinkEvents.lean ====
section
/-! DEFINITION. The meanings of the link, frame and round commands (Chapters 2, 3 and 5). A command whose event cannot
arise in the state leaves the state as it is (entry 4). -/

namespace Sys2Proof.Machine

/-- SYNC_LMARK_FALL (R26): the station holds LMARK, starts its round timer with I and enters HOLD. -/
def execSyncLmarkFall (s : State) : Host.Outcome State Fault Refusal :=
  if s.link.state = .sync then .next { s with link := s.link.enterHold s.settings.roundInterval } else .next s

/-- SYNC_LBEAT_CHANGE (R26): the quiet timer restarts with 4 × I. -/
def execSyncLbeatChange (s : State) : Host.Outcome State Fault Refusal :=
  if s.link.state = .sync then
    .next { s with link := { s.link with lbeat := s.link.lbeat.flip, roundTimer := some s.settings.quietTime } }
  else .next s

/-- QUIET_TIMER_EXPIRY (R26): with LBEAT high the station holds LMARK and enters HOLD; with LBEAT low the timer
restarts. LMARK is high as long as the station is in SYNC. -/
def execQuietTimerExpiry (s : State) : Host.Outcome State Fault Refusal :=
  if s.link.state = .sync ∧ s.link.roundTimer.isSome = true then
    match s.link.lbeat with
    | .high => .next { s with link := s.link.enterHold s.settings.roundInterval }
    | .low => .next { s with link := { s.link with roundTimer := some s.settings.quietTime } }
  else .next s

/-- The composition of R27 and R49: in JOINING and MEMBER the frame is stored and what it takes goes into flight. -/
def State.compose (s : State) : State :=
  if s.valid then
    { s with
      frame := { s.frame with sending := some s.composedFrame }
      outbox := s.outbox.afterComposition (decide (s.member.state = .member)) }
  else s

/-- The Link controller releases LMARK, enters WAIT and starts the stall timer (R27). -/
def Link.enterWait (l : Link) (limit : Nat) : Link :=
  { l with state := .wait, roundTimer := none, stallTimer := some limit, holdLmark := false }

/-- ROUND_TIMER_EXPIRY (R27): composition in JOINING and MEMBER and the release of LMARK are one event. -/
def execRoundTimerExpiry (s : State) : Host.Outcome State Fault Refusal :=
  if s.link.state = .hold ∧ s.link.roundTimer.isSome = true then
    .next { s.compose with link := s.link.enterWait s.settings.stallLimit }
  else .next s

/-- A LINK_STALLED or LINK_RESUMED notice (R28). -/
def linkNotice (kind : NoticeKind) (cs : Option Half) : Notice :=
  { kind := kind, cs := cs, subject := none, value := none }

/-- STALL_TIMER_EXPIRY (R28): one LINK_STALLED, the stalled flag set, the timer not restarted. -/
def execStallTimerExpiry (s : State) : Host.Outcome State Fault Refusal :=
  if s.link.state = .wait ∧ s.link.stallTimer.isSome = true then
    .next (State.post { s with link := { s.link with stalled := true, stallTimer := none } }
      (linkNotice .linkStalled s.noticeCs))
  else .next s

/-- WAIT_LMARK_RISE (R28): LINK_RESUMED if the station was stalled, then SLOTS. -/
def execWaitLmarkRise (s : State) : Host.Outcome State Fault Refusal :=
  if s.link.state = .wait then
    .next (State.postAll { s with link := s.link.enterSlots s.settings, frame := s.frame.enterSlots }
      (if s.link.stalled then [linkNotice .linkResumed s.noticeCs] else []))
  else .next s

/-- LBEAT_HALF_PERIOD_EXPIRY (R29): the station holds LBEAT at the end of its high wait, or releases it at the end of
its low phase. -/
def execLbeatHalfPeriodExpiry (s : State) : Host.Outcome State Fault Refusal :=
  if s.link.inRound then
    match s.link.half with
    | .beforeHold => .next { s with link := { s.link with holdLbeat := true, half := .stopped } }
    | .beforeRelease => .next { s with link := { s.link with holdLbeat := false, half := .stopped } }
    | .stopped => .next s
  else .next s

/-- LBEAT_FALL (R29, R31, R41): the station holds LBEAT for h, restarts the BEAT stuck timer, and sets or releases
LDATA for the next bit. -/
def execLbeatFall (s : State) : Host.Outcome State Fault Refusal :=
  if s.link.inRound ∧ s.link.lbeat = .high then
    .next { s with
      link := { s.link with
        lbeat := .low, holdLbeat := true, half := .beforeRelease, stuckTimer := some s.settings.stuckLimit
        holdLdata := s.holdsNextBit } }
  else .next s

/-- LBEAT_RISE (R29, R34, R37): a rise that ends neither a present slot nor the round. -/
def execLbeatRise (ldata : Level) (s : State) : Host.Outcome State Fault Refusal :=
  if s.link.riseCanCome ∧ s.endsPresentSlot ldata = false ∧ s.atLastVerdict = false then
    .next (s.takeRise ldata)
  else .next s

/-- OWN_FRAME_SENT (R52, R53, R54): a rise in the own slot while the station transmits, up to the one that ends the
slot with the result OWN (entry 12). -/
def execOwnFrameSent (ldata : Level) (s : State) : Host.Outcome State Fault Refusal :=
  if s.link.riseCanCome ∧ s.link.state = .slots ∧ s.inOwnSlot then .next (s.takeRise ldata) else .next s

/-- FRAME_RECEIVED (R56 to R60): the rise that ends another station's present slot. -/
def execFrameReceived (ldata : Level) (s : State) : Host.Outcome State Fault Refusal :=
  if s.link.riseCanCome ∧ s.endsPresentSlot ldata ∧ s.inOwnSlot = false then .next (s.takeRise ldata)
  else .next s

/-- ROUND_CLOSE (R38, R39): the rise that samples verdict bit N - 1. -/
def execRoundClose (ldata : Level) (order : List NoticeBlock) (s : State) : Host.Outcome State Fault Refusal :=
  if s.link.riseCanCome ∧ s.atLastVerdict then .next ((s.takeRise ldata).closeRound order) else .next s

/-- LMARK_FALL_IN_ROUND (R40, R42): the round is aborted at this station. -/
def execLmarkFallInRound (order : List NoticeBlock) (s : State) : Host.Outcome State Fault Refusal :=
  if s.link.inRound then .next (s.abortRound order) else .next s

/-- BEAT_STUCK_EXPIRY (R41, R42): the round is aborted at this station. -/
def execBeatStuckExpiry (order : List NoticeBlock) (s : State) : Host.Outcome State Fault Refusal :=
  if s.link.inRound ∧ s.link.stuckTimer.isSome = true then .next (s.abortRound order) else .next s

end Sys2Proof.Machine
end

