-- ==== Sys2Proof/Machine/Checks.lean ====
section
/-! DEFINITION. The checks of SETUP_COMMIT in ascending offset order (R164 to R168). A check is the offset it
names and whether it fails. -/

namespace Sys2Proof.Machine

/-- One check: the offset it names, and whether it fails. -/
structure Check where
  offset : Nat
  fails : Bool
  deriving DecidableEq, Repr

/-- The checks of offsets 00H to 0FH (R165). -/
def headerChecks (m : Record) : List Check :=
  [ ⟨0x00, decide (15 < m.stationNumber)⟩,
    ⟨0x01, decide (m.clusterSize < 2 ∨ 16 < m.clusterSize ∨ m.clusterSize ≤ m.stationNumber)⟩,
    ⟨0x02, decide (1 < (m.read 0x02).toNat)⟩,
    ⟨0x03, decide (3 < (m.read 0x03).toNat)⟩,
    ⟨0x04, decide (m.read 0x04 = 0)⟩,
    ⟨0x05, decide (m.read 0x05 = 0)⟩,
    ⟨0x06, decide (m.objectionLimit < 2 ∨ 15 < m.objectionLimit)⟩,
    ⟨0x07, decide (m.foundingSilence < 3 ∨ 63 < m.foundingSilence)⟩,
    ⟨0x08, decide (3 < (m.read 0x08).toNat)⟩ ] ++
  (List.range' 0x0A 6).map fun offset => ⟨offset, decide (m.read offset ≠ 0)⟩

/-- The kind code of an entry as it stands in the record, 0 to 3. -/
def Record.kindCode (m : Record) (e : Entry) : Nat := ((m.read (entryOffset e)).extractLsb' 0 2).toNat

/-- Whether every entry is OFF (R166). -/
def Record.allOff (m : Record) : Bool := (List.finRange 32).all fun e => m.kindCode e == 0

/-- The checks of one entry record, in offset order; the last entry's kind byte is also judged for a record
whose entries are all OFF (R166). -/
def entryChecks (m : Record) (e : Entry) : List Check :=
  let at_ := entryOffset e
  let code := m.kindCode e
  [ ⟨at_, decide (code = 3) || decide ((m.read at_).extractLsb' 2 5 ≠ 0) ||
      (decide (code = 0) && m.watched e) || (decide (e = 31) && m.allOff)⟩,
    ⟨at_ + 1, decide (code = 0 ∧ m.preset e ≠ 0)⟩,
    ⟨at_ + 4, if code = 2 then decide (m.ceiling e = 0 ∨ m.ceiling e < m.preset e)
      else decide (m.ceiling e ≠ 0)⟩,
    ⟨at_ + 7, if m.watched e then decide (code = 2 ∧ m.ceiling e < m.watchHigh e)
      else decide (m.watchHigh e ≠ 0)⟩,
    ⟨at_ + 10, if m.watched e then decide (¬ m.watchLow e < m.watchHigh e)
      else decide (m.watchLow e ≠ 0)⟩ ]

/-- The code for none in a map's entry byte (Table 12-2). -/
def mapNone : Byte := 0xFF

/-- The two checks of a map that must be valid: the entry byte, then the sign-and-weight byte (R167). -/
def mapChecks (m : Record) (offset : Nat) : List Check :=
  let entry := m.read offset
  let sw := m.read (offset + 1)
  [ ⟨offset, decide (entry ≠ mapNone) &&
      (decide (31 < entry.toNat) || decide (m.kindCode (Fin.ofNat 32 entry.toNat) = 0))⟩,
    ⟨offset + 1, if entry = mapNone then decide (sw ≠ 0)
      else decide (sw.extractLsb' 0 4 = 0 ∨ sw.extractLsb' 4 3 ≠ 0)⟩ ]

/-- The two checks of a map that must be absent: both bytes 00H (R167). -/
def noMapChecks (m : Record) (offset : Nat) : List Check :=
  [⟨offset, decide (m.read offset ≠ 0)⟩, ⟨offset + 1, decide (m.read (offset + 1) ≠ 0)⟩]

/-- The mode code of an input as it stands in the record. -/
def Record.modeCode (m : Record) (i : Fin 8) : Nat := (m.read (inputOffset i)).toNat

/-- The check of an input's mode byte: an odd input is judged against the even input before it (R167). -/
def modeFails (m : Record) (i : Fin 8) : Bool :=
  let code := m.modeCode i
  if i.val % 2 = 0 then decide (3 ≤ code)
  else
    let even := m.modeCode (i - 1)
    decide (3 < code) || decide (code = 2) || decide (code = 3 ∧ even ≠ 2) || decide (code ≠ 3 ∧ even = 2)

/-- The check of an input's second byte (R167). -/
def secondByteFails (m : Record) (i : Fin 8) : Bool :=
  let code := m.modeCode i
  let settle := ((m.read (inputOffset i + 1)).extractLsb' 4 4).toNat
  let low := ((m.read (inputOffset i + 1)).extractLsb' 0 4).toNat
  decide (4 < settle) || decide (code = 1 ∧ 2 < low) || decide (code = 2 ∧ 1 < low) ||
    decide ((code = 0 ∨ code = 3) ∧ low ≠ 0) || decide (code = 0 ∧ settle ≠ 0)

/-- The checks of one input record, in offset order (R167). -/
def inputChecks (m : Record) (i : Fin 8) : List Check :=
  let at_ := inputOffset i
  let code := m.modeCode i
  [⟨at_, modeFails m i⟩, ⟨at_ + 1, secondByteFails m i⟩] ++
    (if code = 1 ∨ code = 2 then mapChecks m (at_ + 2) else noMapChecks m (at_ + 2)) ++
    (if code = 2 then mapChecks m (at_ + 4) else noMapChecks m (at_ + 4))

/-- The checks of one output record, in offset order (R168). -/
def outputChecks (m : Record) (o : Fin 8) : List Check :=
  let at_ := outputOffset o
  let source := (m.read at_).toNat
  let entry := m.read (at_ + 1)
  let mode := ((m.read (at_ + 2)).extractLsb' 0 4).toNat
  let width := m.read (at_ + 3)
  [ ⟨at_, decide (2 < source)⟩,
    ⟨at_ + 1, if source = 1 then decide (31 < entry.toNat) || !m.watched (Fin.ofNat 32 entry.toNat)
      else decide (entry ≠ 0)⟩,
    ⟨at_ + 2, decide ((m.read (at_ + 2)).extractLsb' 4 3 ≠ 0) ||
      (if source = 1 then decide (mode < 1 ∨ 5 < mode) else decide (mode ≠ 0))⟩,
    ⟨at_ + 3, if source = 1 then decide (3 ≤ mode ∧ width = 0) else decide (width ≠ 0)⟩ ]

/-- Every check in ascending offset order (R164). -/
def setupChecks (m : Record) : List Check :=
  headerChecks m ++ (List.finRange 32).flatMap (entryChecks m) ++
    (List.finRange 8).flatMap (inputChecks m) ++ (List.finRange 8).flatMap (outputChecks m)

/-- The offset of the first check that fails, or none when the record passes (R164). -/
def firstFailure (m : Record) : Option Nat :=
  ((setupChecks m).find? fun c => c.fails).map fun c => c.offset

end Sys2Proof.Machine
end

