-- ==== Sys2Proof/Machine/Operands.lean ====
section
/-! DEFINITION. Requests and their operand bytes as the Tap port takes them, and the framing of a transaction: the
status byte, operand bytes, answers, early clocking and TDO (Chapter 10, Table 12-4). -/

namespace Sys2Proof.Machine

/-- The requests of Table 10-5. -/
inductive Request where
  | status
  | readEntry
  | readOutbox
  | readRoster
  | takeNotice
  | readSnapshot
  | releaseSnapshot
  | freeze
  | zero
  | adjust
  | setOutput
  | leave
  | rejoin
  | setupWrite
  | setupRead
  | setupCommit
  deriving DecidableEq, Repr

/-- The code of a request (Table 12-4). -/
def Request.code : Request → Byte
  | .status => 0x01
  | .readEntry => 0x02
  | .readOutbox => 0x03
  | .readRoster => 0x04
  | .takeNotice => 0x05
  | .readSnapshot => 0x06
  | .releaseSnapshot => 0x07
  | .freeze => 0x10
  | .zero => 0x11
  | .adjust => 0x12
  | .setOutput => 0x13
  | .leave => 0x14
  | .rejoin => 0x15
  | .setupWrite => 0x20
  | .setupRead => 0x21
  | .setupCommit => 0x22

/-- Every request, in the order of Table 12-4. -/
def allRequests : List Request :=
  [ .status, .readEntry, .readOutbox, .readRoster, .takeNotice, .readSnapshot, .releaseSnapshot, .freeze,
    .zero, .adjust, .setOutput, .leave, .rejoin, .setupWrite, .setupRead, .setupCommit ]

/-- The request that a code names, if any (R149). -/
def requestOf (code : Byte) : Option Request := allRequests.find? fun r => r.code == code

/-- The data bytes that follow a SETUP_WRITE length byte (R150). -/
def dataBytes (length : Byte) : Nat :=
  if 1 ≤ length.toNat ∧ length.toNat ≤ 32 then length.toNat else 0

/-- The operand bytes that a request has, given those taken so far: SETUP_WRITE's third is a length (R150,
Table 10-5). -/
def Request.operandCount (r : Request) (taken : List Byte) : Nat :=
  match r with
  | .status | .readRoster | .takeNotice | .releaseSnapshot | .freeze | .leave | .rejoin | .setupCommit => 0
  | .readEntry | .readOutbox | .zero => 1
  | .readSnapshot | .setOutput => 2
  | .adjust | .setupRead => 3
  | .setupWrite =>
    match taken with
    | _ :: _ :: length :: _ => 3 + dataBytes length
    | _ => 3

/-- The byte that a shift register holds with one more bit taken (R146). That TDI high is a 1 is the model's choice: R170
says so for LDATA alone (DESIGN CHOICE, entry 36). -/
def shiftBit (register : Byte) (bit : Level) : Byte := (register <<< 1) ||| (BitVec.ofBool bit.bit).setWidth 8

/-- Whether the next sampling edge completes a request byte or operand byte `last`, whose first seven bits have been
taken (R146). -/
def Tap.completesByte (t : Tap) (last : Byte) : Bool :=
  decide (t.bits = 7) && decide (t.shiftIn.setWidth 7 = last.extractLsb' 1 7)

/-- Whether the next sampling edge is the one at which the request with this code and these operand bytes takes
effect (R149, R150, entry 9). -/
def Tap.completes (t : Tap) (code : Byte) (operands : List Byte) : Bool :=
  match operands.getLast? with
  | none => decide (t.state = .request) && t.completesByte code
  | some last =>
    decide (t.state = .operands) && decide (t.code = some code) && decide (t.operands = operands.dropLast) &&
      t.completesByte last

/-- Whether the clock format samples TDI on the rising edge of TCLK (Table 10-2). -/
def Tap.samplesOnRising (t : Tap) : Bool := t.fmt1 == t.fmt0

/-- The level at which a sampling edge leaves TCLK: high after a rising edge, low after a falling one (Table 10-2). -/
def Tap.sampledAt (t : Tap) : Level := Level.ofBit t.samplesOnRising

/-- Whether the first bit of a byte stands on TDO at the TSEL fall and after each eighth sampling edge, rather than
at the first shifting edge of the byte: the formats with FMT0 low (Table 10-2). That "after each eighth sampling edge"
means at that edge is the model's choice (DESIGN CHOICE, entry 35). -/
def Tap.firstBitAtOnce (t : Tap) : Bool := t.fmt0 == .low

/-- TDO after the eighth sampling edge of a byte, the next byte being given: its first bit at once, or the level that
stands there, up to the first shifting edge of the next byte (R146, Table 10-2). That the first bit comes with the
eighth sampling edge itself, and not with the shifting edge after it, is the model's choice (DESIGN CHOICE, entry 35). -/
def Tap.tdoAfterByte (t : Tap) (next : Byte) : Tdo :=
  if t.firstBitAtOnce then .bit (Level.ofBit (next.getLsbD 7)) else t.tdo

/-- Whether a transaction is running: TSEL low, and the fall taken as one (R146, Table 10-3). -/
def Tap.running (t : Tap) : Bool :=
  match t.state with
  | .request | .operands | .answer | .trailing => true
  | .idle | .shut => false

/-- Whether the next edge of TCLK is a shifting edge: a transaction is running, and TCLK stands where a sampling edge
leaves it (R146, R147). -/
def Tap.shiftDue (t : Tap) : Bool := t.running && decide (t.tclk = t.sampledAt)

/-- The bit that the next shifting edge places: the one that the next sampling edge will sample in the formats whose
first bit stands there at once, else the first of the byte that has not been placed (R146, Table 10-2, entry 15). A 1
stands as high on TDO (DESIGN CHOICE, entry 36). -/
def Tap.nextBit (t : Tap) : Level :=
  Level.ofBit (t.shiftOut.getLsbD (7 - if t.firstBitAtOnce then t.bits else t.placed))

/-- A shifting edge: the next bit is placed on TDO (R146, Table 10-2). -/
def Tap.shiftEdge (t : Tap) : Tap :=
  { t with tclk := t.sampledAt.flip, placed := t.placed + 1, tdo := .bit t.nextBit }

/-- The tap at a sampling edge, before the edge acts: a shifting edge that was still due has come before it, as the
edges of TCLK alternate (R146, entry 30). -/
def Tap.toSamplingEdge (t : Tap) : Tap :=
  { (if t.shiftDue then t.shiftEdge else t) with tclk := t.sampledAt }

/-- Time in which no command comes: the shifting edge that is due in a transaction is taken; else the station idles
(R146, entries 5 and 30). -/
def State.idle (s : State) : State := if s.tap.shiftDue then { s with tap := s.tap.shiftEdge } else s

/-- The bytes of an answer: the result byte, then the reply (R151). -/
def Result.code : Result → Byte
  | .ok => 0x80
  | .empty => 0x81
  | .full => 0x82
  | .already => 0x83
  | .refused => 0x84
  | .badOperand => 0x85
  | .badSetup => 0x86
  | .unknown => 0x87

/-- The result byte and the reply bytes; a result other than OK has no reply (R151). -/
def Answer.bytes (a : Answer) : List Byte :=
  a.result.code :: (match a.result with
    | .ok => a.reply
    | .empty | .full | .already | .refused | .badOperand | .badSetup | .unknown => [])

/-- The filler of an answer clocked early (R159). -/
def earlyByte : Byte := 0xFF

/-- The answer byte at an index, FFH in its place when the answer was clocked early, 00H past its end (R151, R159). -/
def Answer.byteAt (a : Answer) (early : Bool) (index : Nat) : Byte :=
  match a.bytes[index]? with
  | some b => if early then earlyByte else b
  | none => 0x00

/-- The tap once a request has taken effect: in ANSWER, the answer fixed, the result byte in the shift register
(R150, R151). -/
def Tap.fixAnswer (t : Tap) (code : Byte) (operands : List Byte) (a : Answer) : Tap :=
  { t with
    state := .answer, shiftIn := 0, shiftOut := a.byteAt false 0, bits := 0, placed := 0, code := some code
    operands := operands, answer := some a, sent := 0, early := false
    tdo := t.tdoAfterByte (a.byteAt false 0) }

/-- An answer with a result and no reply. -/
def answerOf (result : Result) : Answer :=
  { result := result, reply := [], delivers := none, wait := Config.answerWaitNs }

/-- The answer OK with a reply. -/
def answerOk (reply : List Byte) : Answer :=
  { result := .ok, reply := reply, delivers := none, wait := Config.answerWaitNs }

/-- The entry that an operand byte names, if it is 31 or below. -/
def entryOperand (b : Byte) : Option Entry := if h : b.toNat < 32 then some ⟨b.toNat, h⟩ else none

/-- The output that an operand byte names, if it is 7 or below (R134). -/
def outputOperand (b : Byte) : Option (Fin 8) := if h : b.toNat < 8 then some ⟨b.toNat, h⟩ else none

/-- The level that an operand byte names: 00H low, 01H high (Table 12-4). -/
def levelOperand (b : Byte) : Option Level :=
  if b = 0x00 then some .low else if b = 0x01 then some .high else none

/-- A request taken at the sampling edge that completes it: its owner makes the effect and fixes the answer in one
event (R150). An edge that does not complete this request is not this command (entry 9). -/
def takeRequest (code : Byte) (operands : List Byte) (effect : State → State × Answer) (s : State) :
    Host.Outcome State Fault Refusal :=
  if s.tap.completes code operands then
    let done := effect s
    .next { done.1 with tap := s.tap.toSamplingEdge.fixAnswer code operands done.2 }
  else .next s

/-- The tap outside a transaction, TSEL at the level given, the deselect time given (R148, R152). -/
def Tap.idleAt (t : Tap) (tsel : Level) (deselect : Nat) : Tap :=
  { Tap.reset tsel t.fmt1 t.fmt0 with deselect := deselect }

end Sys2Proof.Machine
end

