-- ==== Sys2Proof/Machine/TapFraming.lean ====
section
/-! DEFINITION. The meanings of the tap's edges: TSEL_FALL, TSEL_RISE, TCLK_SAMPLING_EDGE and TAKE_NOTICE_DELIVERED
(R146 to R153, R159). -/

namespace Sys2Proof.Machine

/-- The tap as a transaction begins: the status byte in the shift register, REQUEST (R149), TCLK at the level given. -/
def Tap.begin (t : Tap) (status : Byte) (deselect : Nat) (tclk : Level) : Tap :=
  { t with
    state := .request, tsel := .low, shiftIn := 0, shiftOut := status, bits := 0, code := none, operands := []
    answer := none, sent := 0, early := false, deselect := deselect, tclk := tclk, placed := 0
    tdo := if t.firstBitAtOnce then .bit (Level.ofBit (status.getLsbD 7)) else .notPlaced }

/-- TSEL_FALL (R149, R153, R159): a transaction begins when the deselect time has reached 2 µs, else the tap enters
SHUT. A fall during a reset is not taken; a line already low cannot fall. -/
def execTselFall (fall : SelectFall) (s : State) : Host.Outcome State Fault Refusal :=
  let t := s.tap
  let deselect := min Config.deselectNs (t.deselect + fall.elapsed)
  if t.tsel = .low then .next s
  else if s.resetting.isSome then .next { s with tap := { t with tsel := .low } }
  else if deselect < Config.deselectNs then
    .next { s with tap := { t.idleAt .low deselect with state := .shut } }
  else .next { s with tap := t.begin s.statusByte deselect fall.tclk }

/-- TSEL_RISE (R152, R159): the transaction ends, what has not taken effect is discarded, TDO is released and the
deselect time starts. During a reset only the level changes (entry 19). -/
def execTselRise (s : State) : Host.Outcome State Fault Refusal :=
  if s.tap.tsel = .high then .next s
  else if s.resetting.isSome then .next { s with tap := { s.tap with tsel := .high } }
  else .next { s with tap := s.tap.idleAt .high 0 }

/-- One bit taken within a byte; TDO keeps the bit placed before it (R146). -/
def Tap.takeBit (t : Tap) (tdi : Level) : Tap :=
  { t with shiftIn := shiftBit t.shiftIn tdi, bits := t.bits + 1 }

/-- The sampling edge that ends the request byte of a request with operands: OPERANDS is entered (R149). The edge of a
byte that names a request without operands, or none, is another command (entry 9). -/
def Tap.endRequestByte (t : Tap) (tdi : Level) : Option Tap :=
  let code := shiftBit t.shiftIn tdi
  match requestOf code with
  | some r =>
    if r.operandCount [] = 0 then none
    else some { t with
      state := .operands, shiftIn := 0, shiftOut := 0, bits := 0, placed := 0, code := some code, operands := []
      tdo := t.tdoAfterByte 0 }
  | none => none

/-- Whether the operand bytes taken are all that a request code has (R150). -/
def operandsComplete (code : Option Byte) (operands : List Byte) : Bool :=
  match code.bind requestOf with
  | some r => decide (r.operandCount operands ≤ operands.length)
  | none => true

/-- The sampling edge that ends an operand byte other than the last: the byte is stored (R150). The edge that ends the
last one is another command (entry 9). -/
def Tap.endOperandByte (t : Tap) (tdi : Level) : Option Tap :=
  let byte := shiftBit t.shiftIn tdi
  if operandsComplete t.code (t.operands ++ [byte]) then none
  else some { t with
    shiftIn := 0, shiftOut := 0, bits := 0, placed := 0, operands := t.operands ++ [byte]
    tdo := t.tdoAfterByte 0 }

/-- The answer marked as clocked early: FFH in place of every byte of it (R159). -/
def Tap.markEarly (t : Tap) (a : Answer) (elapsed : Nat) : Tap :=
  if t.bits = 0 ∧ t.sent = 0 ∧ elapsed < a.wait then { t with early := true, shiftOut := earlyByte } else t

/-- The sampling edge that ends an answer byte: the next byte follows, or TRAILING; the byte shifted in is disregarded
(R151). -/
def Tap.endAnswerByte (t : Tap) (a : Answer) : Tap :=
  let sent := t.sent + 1
  let next := a.byteAt t.early sent
  { t with
    state := if a.bytes.length ≤ sent then .trailing else .answer
    shiftIn := 0, shiftOut := next, bits := 0, placed := 0, sent := sent
    tdo := t.tdoAfterByte next }

/-- Whether the next sampling edge ends the last reply byte of a TAKE_NOTICE that was not clocked early (R143, R151). -/
def Tap.deliversNotice (t : Tap) : Option Notice :=
  match t.state, t.answer with
  | .answer, some a =>
    if t.bits = 7 ∧ t.early = false ∧ a.bytes.length ≤ t.sent + 1 then a.delivers else none
  | _, _ => none

/-- One sampling edge in ANSWER: early clocking is judged at the first edge of the result byte (R151, R159). -/
def Tap.answerEdge (t : Tap) (a : Answer) (tdi : Level) (elapsed : Nat) : Tap :=
  let judged := t.markEarly a elapsed
  if judged.bits < 7 then judged.takeBit tdi else judged.endAnswerByte a

/-- One sampling edge in TRAILING: 00H is shifted out, the byte shifted in disregarded at its end (R151). -/
def Tap.trailingEdge (t : Tap) (tdi : Level) : Tap :=
  if t.bits < 7 then t.takeBit tdi
  else { t with shiftIn := 0, bits := 0, placed := 0, tdo := t.tdoAfterByte 0 }

/-- The station with the tap that an edge leaves; an edge that is another command leaves it as it is (entry 4). -/
def State.withEdge (s : State) (edge : Option Tap) : State :=
  match edge with
  | some t => { s with tap := t }
  | none => s

/-- TCLK_SAMPLING_EDGE (R146, R149, R150, R151): one bit taken, with what the eighth of a byte brings. Outside a
transaction it has no effect. A shifting edge still due comes before it (entry 30). -/
def execTclkSamplingEdge (tdi : Level) (elapsed : Nat) (s : State) : Host.Outcome State Fault Refusal :=
  let t := s.tap.toSamplingEdge
  match t.state with
  | .idle | .shut => .next s
  | .request => .next (s.withEdge (if t.bits < 7 then some (t.takeBit tdi) else t.endRequestByte tdi))
  | .operands => .next (s.withEdge (if t.bits < 7 then some (t.takeBit tdi) else t.endOperandByte tdi))
  | .answer =>
    match t.answer, t.deliversNotice with
    | some a, none => .next { s with tap := t.answerEdge a tdi elapsed }
    | _, _ => .next s
  | .trailing => .next { s with tap := t.trailingEdge tdi }

/-- TAKE_NOTICE_DELIVERED (R143, R144, R145): the last reply byte has been shifted out in full, and the record leaves
the queue or loses the count reported. -/
def execTakeNoticeDelivered (s : State) : Host.Outcome State Fault Refusal :=
  match s.tap.answer, s.tap.deliversNotice with
  | some a, some n =>
    .next { s with notices := deliver s.notices n, tap := s.tap.toSamplingEdge.endAnswerByte a }
  | _, _ => .next s

end Sys2Proof.Machine
end

