-- ==== Sys2Proof/Machine/Requests.lean ====
section
/-! DEFINITION. The meanings of the tap requests, each with its owner's effect and answer (Chapters 4, 5, 8 to 11;
R155). -/

namespace Sys2Proof.Machine

/-- A request that only reads: the state stays, the answer is computed from it. -/
def reading (f : State → Answer) (s : State) : State × Answer := (s, f s)

/-- A request that names an entry: an entry above 31 answers BAD_OPERAND. -/
def withEntry (b : Byte) (f : Entry → Answer) : Answer :=
  match entryOperand b with
  | some e => f e
  | none => answerOf .badOperand

/-- UNKNOWN (R149, R171): a code that names no request answers UNKNOWN with no reply. -/
def execUnknown (code : Byte) (s : State) : Host.Outcome State Fault Refusal :=
  match requestOf code with
  | none => takeRequest code [] (reading fun _ => answerOf .unknown) s
  | some _ => .next s

/-- The reply of STATUS (R156). -/
def State.statusReply (s : State) : List Byte :=
  [ s.statusByte, BitVec.ofNat 8 s.notices.length, BitVec.ofNat 8 s.snapshots.length,
    BitVec.ofNat 8 s.settings.stationNumber, BitVec.ofNat 8 s.settings.clusterSize ]

/-- STATUS (R156). -/
def execStatus (s : State) : Host.Outcome State Fault Refusal :=
  takeRequest Request.status.code [] (reading fun t => answerOk t.statusReply) s

/-- The reply of READ_ENTRY (R21, R157). -/
def State.entryReply (s : State) (e : Entry) : List Byte :=
  bytesOfTally (readValue s.settings s.replica e) ++ [s.entryFlags e]

/-- READ_ENTRY (R21, R157). -/
def execReadEntry (entry : Byte) (s : State) : Host.Outcome State Fault Refusal :=
  takeRequest Request.readEntry.code [entry] (reading fun t => withEntry entry fun e => answerOk (t.entryReply e)) s

/-- The reply of READ_OUTBOX; an OFF entry has no amount (R77). -/
def State.outboxReply (s : State) (e : Entry) : List Byte :=
  let off := decide (s.settings.kind e = .off)
  bytesOfHalf (BitVec.ofInt 16 (if off then 0 else s.outbox.pending[e])) ++
  bytesOfHalf (BitVec.ofInt 16 (if off then 0 else s.outbox.inFlight e)) ++ [s.outboxFlags e]

/-- READ_OUTBOX (R77). -/
def execReadOutbox (entry : Byte) (s : State) : Host.Outcome State Fault Refusal :=
  takeRequest Request.readOutbox.code [entry] (reading fun t => withEntry entry fun e => answerOk (t.outboxReply e)) s

/-- The reply of READ_ROSTER (R158). -/
def State.rosterReply (s : State) : List Byte :=
  [BitVec.ofNat 8 s.settings.clusterSize] ++ rosterBytes s.member.roster ++
  [BitVec.ofNat 8 s.member.streak, BitVec.ofNat 8 s.member.silence] ++ bytesOfHalf s.replica.cs ++ [s.rosterFlags]

/-- READ_ROSTER (R158). -/
def execReadRoster (s : State) : Host.Outcome State Fault Refusal :=
  takeRequest Request.readRoster.code [] (reading fun t => answerOk t.rosterReply) s

/-- The answer of TAKE_NOTICE: the oldest record, which stays in the queue until it has been delivered (R143). -/
def State.noticeAnswer (s : State) : Answer :=
  match s.notices with
  | [] => answerOf .empty
  | n :: _ => { result := .ok, reply := n.bytes, delivers := some n, wait := Config.answerWaitNs }

/-- TAKE_NOTICE (R143). -/
def execTakeNotice (s : State) : Host.Outcome State Fault Refusal :=
  takeRequest Request.takeNotice.code [] (reading State.noticeAnswer) s

/-- The reply of READ_SNAPSHOT from the oldest record (R138). -/
def snapshotReply (oldest : Snapshot) (held first count : Nat) : List Byte :=
  bytesOfHalf oldest.cs ++ bytesOfHalf oldest.requesters ++ [BitVec.ofNat 8 held] ++
  ((oldest.values.toList.drop first).take count).flatMap bytesOfTally

/-- The answer of READ_SNAPSHOT: the operands are judged before the queue (R138). -/
def State.snapshotAnswer (s : State) (first count : Byte) : Answer :=
  if 31 < first.toNat ∨ count.toNat = 0 ∨ 32 < count.toNat ∨ 32 < first.toNat + count.toNat then
    answerOf .badOperand
  else match s.snapshots with
    | [] => answerOf .empty
    | oldest :: _ => answerOk (snapshotReply oldest s.snapshots.length first.toNat count.toNat)

/-- READ_SNAPSHOT (R138). -/
def execReadSnapshot (first count : Byte) (s : State) : Host.Outcome State Fault Refusal :=
  takeRequest Request.readSnapshot.code [first, count] (reading fun t => t.snapshotAnswer first count) s

/-- The oldest snapshot record removed (R139). -/
def State.releaseSnapshot (s : State) : State × Answer :=
  match s.snapshots with
  | [] => (s, answerOf .empty)
  | _ :: rest => ({ s with snapshots := rest }, answerOk [])

/-- RELEASE_SNAPSHOT (R139). -/
def execReleaseSnapshot (s : State) : Host.Outcome State Fault Refusal :=
  takeRequest Request.releaseSnapshot.code [] State.releaseSnapshot s

/-- The freeze flag set in MEMBER (R74). -/
def State.requestFreeze (s : State) : State × Answer :=
  if s.member.state = .member then ({ s with outbox := { s.outbox with freeze := true } }, answerOk [])
  else (s, answerOf .refused)

/-- FREEZE (R74). -/
def execFreeze (s : State) : Host.Outcome State Fault Refusal :=
  takeRequest Request.freeze.code [] State.requestFreeze s

/-- A zero request added at the tail of the list, or the first condition of R73 that stands against it. -/
def State.requestZero (s : State) (entry : Byte) : State × Answer :=
  if s.member.state ≠ .member then (s, answerOf .refused)
  else match entryOperand entry with
    | none => (s, answerOf .badOperand)
    | some e =>
      if s.settings.kind e = .off then (s, answerOf .badOperand)
      else if e ∈ s.outbox.zeroList ∨ e ∈ s.outbox.flightZeros then (s, answerOf .already)
      else if Config.zeroDepth ≤ s.outbox.zeroList.length + s.outbox.flightZeros.length then (s, answerOf .full)
      else ({ s with outbox := { s.outbox with zeroList := s.outbox.zeroList ++ [e] } }, answerOk [])

/-- ZERO (R73). -/
def execZero (entry : Byte) (s : State) : Host.Outcome State Fault Refusal :=
  takeRequest Request.zero.code [entry] (fun t => t.requestZero entry) s

/-- A correction added to the pending amount of an entry, or the first condition of R64 that stands against it. -/
def State.requestAdjust (s : State) (entry : Byte) (amount : Half) : State × Answer :=
  if s.member.state = .setup then (s, answerOf .refused)
  else match entryOperand entry with
    | none => (s, answerOf .badOperand)
    | some e =>
      if s.settings.kind e = .off then (s, answerOf .badOperand)
      else if amount.toInt < -Config.amountLimit ∨ Config.amountLimit < amount.toInt then (s, answerOf .badOperand)
      else (s.addPending e amount.toInt, answerOk [])

/-- ADJUST (R64). -/
def execAdjust (entry : Byte) (amount : Half) (s : State) : Host.Outcome State Fault Refusal :=
  takeRequest Request.adjust.code (entry :: bytesOfHalf amount) (fun t => t.requestAdjust entry amount) s

/-- A LOCAL output's latch written and its pin driven, or the first condition of R134 that stands against it. -/
def State.requestOutput (s : State) (output level : Byte) : State × Answer :=
  if s.member.state = .setup then (s, answerOf .refused)
  else match outputOperand output, levelOperand level with
    | some o, some l =>
      if s.settings.outputSource o = .local then
        ({ s with outputs := s.outputs.set o { s.outputs[o] with level := l, latch := some l } }, answerOk [])
      else (s, answerOf .badOperand)
    | _, _ => (s, answerOf .badOperand)

/-- SET_OUTPUT (R134). -/
def execSetOutput (output level : Byte) (s : State) : Host.Outcome State Fault Refusal :=
  takeRequest Request.setOutput.code [output, level] (fun t => t.requestOutput output level) s

/-- The leave flag set in MEMBER (R75). -/
def State.requestLeave (s : State) : State × Answer :=
  if s.member.state = .member then ({ s with outbox := { s.outbox with leave := true } }, answerOk [])
  else (s, answerOf .refused)

/-- LEAVE (R75). -/
def execLeave (s : State) : Host.Outcome State Fault Refusal :=
  takeRequest Request.leave.code [] State.requestLeave s

/-- Entry to LISTEN from OFF: R82, the Link controller to SYNC, and STATE_CHANGED (R83). -/
def State.listenFromOff (s : State) (cause : Cause) (lmark lbeat : Level) : State :=
  let entered := s.enterListen
  State.postChange { entered with link := entered.link.enterSync entered.settings lmark lbeat } cause s.member.state

/-- PARKED or INCOMPATIBLE left for LISTEN; refused in every other state (R99). -/
def State.requestRejoin (s : State) (lmark lbeat : Level) : State × Answer :=
  if s.member.state = .parked ∨ s.member.state = .incompatible then
    (s.listenFromOff .rejoined lmark lbeat, answerOk [])
  else (s, answerOf .refused)

/-- REJOIN (R99). -/
def execRejoin (lmark lbeat : Level) (s : State) : Host.Outcome State Fault Refusal :=
  takeRequest Request.rejoin.code [] (fun t => t.requestRejoin lmark lbeat) s

/-- Bytes written into the record in SETUP, or the first condition of R162 that stands against it. -/
def State.requestWrite (s : State) (offset : Half) (length : Byte) (data : List Byte) : State × Answer :=
  if s.member.state ≠ .setup then (s, answerOf .refused)
  else if length.toNat = 0 ∨ 32 < length.toNat then (s, answerOf .badOperand)
  else if 0x1FF < offset.toNat ∨ 512 < offset.toNat + length.toNat then (s, answerOf .badOperand)
  else ({ s with setup := { s.setup with record := s.setup.record.writeAll offset.toNat data } }, answerOk [])

/-- SETUP_WRITE (R150, R162). An operand list whose data do not number as its length byte says completes no
request. -/
def execSetupWrite (offset : Half) (length : Byte) (data : List Byte) (s : State) :
    Host.Outcome State Fault Refusal :=
  if data.length = dataBytes length then
    takeRequest Request.setupWrite.code (bytesOfHalf offset ++ length :: data)
      (fun t => t.requestWrite offset length data) s
  else .next s

/-- The answer of SETUP_READ (R163). -/
def State.readAnswer (s : State) (offset : Half) (length : Byte) : Answer :=
  if length.toNat = 0 ∨ 32 < length.toNat then answerOf .badOperand
  else if 0x201 < offset.toNat ∨ 0x202 < offset.toNat + length.toNat then answerOf .badOperand
  else answerOk ((List.range' offset.toNat length.toNat).map (readableByte s.setup.record s.setup.failure))

/-- SETUP_READ (R163). -/
def execSetupRead (offset : Half) (length : Byte) (s : State) : Host.Outcome State Fault Refusal :=
  takeRequest Request.setupRead.code (bytesOfHalf offset ++ [length]) (reading fun t => t.readAnswer offset length) s

/-- The Setup store after a commit that finds no failure (R169). -/
def SetupStore.commit (u : SetupStore) : SetupStore :=
  { u with committed := true, digest := u.record.digest, failure := 0xFFFF }

/-- What a commit that finds no failure does in its one event (R103, R127, R169). -/
def State.commitRecord (s : State) (lmark lbeat : Level) : State :=
  State.listenFromOff { s with
    setup := s.setup.commit
    outputs := outputsAtCommit s.setup.record s.outputs
    inputs := { s.inputs with clock := true } } .setupCommitted lmark lbeat

/-- An answer of SETUP_COMMIT, which may be shifted out after 1 ms (R159). -/
def commitAnswer (result : Result) : Answer := { answerOf result with wait := Config.commitWaitNs }

/-- The record checked in offset order, and committed when no check fails (R164). -/
def State.requestCommit (s : State) (lmark lbeat : Level) : State × Answer :=
  if s.member.state ≠ .setup then (s, commitAnswer .refused)
  else match firstFailure s.setup.record with
    | some offset =>
      ({ s with setup := { s.setup with failure := BitVec.ofNat 16 offset } }, commitAnswer .badSetup)
    | none => (s.commitRecord lmark lbeat, commitAnswer .ok)

/-- SETUP_COMMIT (R164, R169). -/
def execSetupCommit (lmark lbeat : Level) (s : State) : Host.Outcome State Fault Refusal :=
  takeRequest Request.setupCommit.code [] (fun t => t.requestCommit lmark lbeat) s

end Sys2Proof.Machine
end

