-- ==== Sys2Proof/Machine/Resets.lean ====
section
/-! DEFINITION. The meanings of the reset commands (R161). -/

namespace Sys2Proof.Machine

/-- POWER_ON_RESET (R161): the record is cleared and every block takes its reset values. -/
def execPowerOnReset (s : State) : Host.Outcome State Fault Refusal :=
  .next (s.blocksReset [] .powerOn)

/-- RESET_PIN_FALL (R161): the record is kept and every other block takes its reset values. While a reset is already
in progress the fall begins none (entry 18). -/
def execResetPinFall (s : State) : Host.Outcome State Fault Refusal :=
  match s.resetting with
  | none => .next (s.blocksReset s.setup.record .pin)
  | some _ => .next s

/-- RESET_END (R147, R154, R161): the cause is recorded and the straps are sampled; the station is in SETUP. It comes
only while a reset is in progress. -/
def execResetEnd (fmt1 fmt0 : Level) (s : State) : Host.Outcome State Fault Refusal :=
  match s.resetting with
  | none => .next s
  | some kind =>
    .next { s with
      resetting := none
      setup := { s.setup with cause := kind }
      tap := { s.tap with fmt1 := fmt1, fmt0 := fmt0 } }

end Sys2Proof.Machine
end

