-- ==== Sys2Proof/Machine/Dispatch.lean ====
section
/-! DEFINITION. exec: one arm for each command, each one direct call of its meaning. -/

namespace Sys2Proof.Machine

def exec (i : Instr) (s : State) : Host.Outcome State Fault Refusal :=
  match i with
  | .powerOnReset => Sys2Proof.Machine.execPowerOnReset s
  | .resetPinFall => Sys2Proof.Machine.execResetPinFall s
  | .resetEnd fmt1 fmt0 => Sys2Proof.Machine.execResetEnd fmt1 fmt0 s
  | .tselFall fall => Sys2Proof.Machine.execTselFall fall s
  | .tselRise => Sys2Proof.Machine.execTselRise s
  | .unknown code => Sys2Proof.Machine.execUnknown code s
  | .status => Sys2Proof.Machine.execStatus s
  | .readEntry entry => Sys2Proof.Machine.execReadEntry entry s
  | .readOutbox entry => Sys2Proof.Machine.execReadOutbox entry s
  | .readRoster => Sys2Proof.Machine.execReadRoster s
  | .takeNotice => Sys2Proof.Machine.execTakeNotice s
  | .takeNoticeDelivered => Sys2Proof.Machine.execTakeNoticeDelivered s
  | .readSnapshot first count => Sys2Proof.Machine.execReadSnapshot first count s
  | .releaseSnapshot => Sys2Proof.Machine.execReleaseSnapshot s
  | .freeze => Sys2Proof.Machine.execFreeze s
  | .zero entry => Sys2Proof.Machine.execZero entry s
  | .adjust entry amount => Sys2Proof.Machine.execAdjust entry amount s
  | .setOutput output level => Sys2Proof.Machine.execSetOutput output level s
  | .leave => Sys2Proof.Machine.execLeave s
  | .rejoin lmark lbeat => Sys2Proof.Machine.execRejoin lmark lbeat s
  | .setupWrite offset length data => Sys2Proof.Machine.execSetupWrite offset length data s
  | .setupRead offset length => Sys2Proof.Machine.execSetupRead offset length s
  | .setupCommit lmark lbeat => Sys2Proof.Machine.execSetupCommit lmark lbeat s
  | .syncLmarkFall => Sys2Proof.Machine.execSyncLmarkFall s
  | .syncLbeatChange => Sys2Proof.Machine.execSyncLbeatChange s
  | .quietTimerExpiry => Sys2Proof.Machine.execQuietTimerExpiry s
  | .roundTimerExpiry => Sys2Proof.Machine.execRoundTimerExpiry s
  | .stallTimerExpiry => Sys2Proof.Machine.execStallTimerExpiry s
  | .waitLmarkRise => Sys2Proof.Machine.execWaitLmarkRise s
  | .lbeatHalfPeriodExpiry => Sys2Proof.Machine.execLbeatHalfPeriodExpiry s
  | .ownFrameSent ldata => Sys2Proof.Machine.execOwnFrameSent ldata s
  | .frameReceived ldata => Sys2Proof.Machine.execFrameReceived ldata s
  | .roundClose ldata order => Sys2Proof.Machine.execRoundClose ldata order s
  | .lmarkFallInRound order => Sys2Proof.Machine.execLmarkFallInRound order s
  | .beatStuckExpiry order => Sys2Proof.Machine.execBeatStuckExpiry order s
  | .sampleInstant levels order => Sys2Proof.Machine.execSampleInstant levels order s
  | .passageTimerExpiry pair => Sys2Proof.Machine.execPassageTimerExpiry pair s
  | .pulseTimerExpiry output => Sys2Proof.Machine.execPulseTimerExpiry output s
  | .lbeatFall => Sys2Proof.Machine.execLbeatFall s
  | .lbeatRise ldata => Sys2Proof.Machine.execLbeatRise ldata s
  | .tclkSamplingEdge tdi elapsed => Sys2Proof.Machine.execTclkSamplingEdge tdi elapsed s

end Sys2Proof.Machine
end

