-- ==== Sys2Proof/Safety.lean ====
section
/-! DEFINITION. What counts as a safe station: the laws of the device that the spec states ("This rule holds the following
law of the device"), with what each needs to be kept by every step, and the words in which the statements speak of a
request, of a rise of LBEAT and of a run. -/

namespace Sys2Proof.Safety

open Sys2Proof.Machine

/-- The station states in which the Link controller is in OFF (R24). -/
def standsAside : StationState → Bool
  | .setup | .parked | .incompatible | .fault => true
  | .listen | .joining | .member => false

/-- The law of R142: at most 16 records, and an OVERFLOW record is the newest. Beside one, at most 15 others stand. -/
abbrev NoticesWf (s : State) : Prop :=
  s.notices.length ≤ 16 ∧ (∀ n ∈ s.notices.dropLast, n.isOverflow = false) ∧
  (s.notices.filter fun n => !n.isOverflow).length ≤ 15

/-- The laws of R65, R68 and R73 over the Outbox's own contents. -/
abbrev OutboxWf (s : State) : Prop :=
  (∀ e : Entry, -32767 ≤ s.outbox.pending[e] ∧ s.outbox.pending[e] ≤ 32767) ∧
  (∀ d ∈ s.outbox.flightDeltas, -2047 ≤ d.amount.toInt ∧ d.amount.toInt ≤ 2047) ∧
  s.outbox.flightDeltas.length ≤ 8 ∧ (s.outbox.flightDeltas.map fun d => d.entry).Nodup ∧
  (s.outbox.zeroList ++ s.outbox.flightZeros).Nodup ∧
  (s.outbox.zeroList ++ s.outbox.flightZeros).length ≤ 4 ∧ s.outbox.flightZeros.length ≤ 2

/-- The setup record in its canonical form, committed exactly outside SETUP, past the checks once committed, its digest
held; the sample clock runs exactly while one is committed; only JOINING and MEMBER transmit; the tap is idle during a
reset (R1, R33, R103, R148, R160, R164, R169). -/
abbrev SetupWf (s : State) : Prop :=
  s.setup.record.wf = true ∧
  (s.setup.committed = true ↔ s.member.state ≠ .setup) ∧
  (s.setup.committed = true → firstFailure s.setup.record = none ∧ s.setup.digest = s.setup.record.digest) ∧
  s.inputs.clock = s.setup.committed ∧
  (s.transmits = true → s.valid = true) ∧
  (s.resetting.isSome = true → s.tap.state = .idle ∧ s.member.state = .setup)

/-- The laws of R24 and R68: which lines the station may hold in which state, when it transmits, and that nothing is
in flight in OFF, SYNC and HOLD. -/
abbrev LinkWf (s : State) : Prop :=
  (s.link.state = .off ↔ standsAside s.member.state = true) ∧
  (s.link.holdLmark = true ↔ s.link.state = .hold) ∧
  (s.link.holdLbeat = true → s.link.inRound = true) ∧
  (s.link.holdLdata = true → s.link.inRound = true ∧ s.transmits = true) ∧
  (s.transmits = true → s.valid = true ∧ (s.link.state = .wait ∨ s.link.inRound = true)) ∧
  (s.outbox.flightEmpty = false → s.transmits = true) ∧
  (s.link.state = .off → s.frame.results = [])

/-! ### What SETUP_COMMIT asks of a record, field by field -/

/-- The byte at an offset as a number. -/
def byteAt (m : Record) (offset : Nat) : Nat := (m.read offset).toNat

/-- The three bytes from an offset on as a number, most significant first (R170). -/
def threeAt (m : Record) (offset : Nat) : Nat :=
  65536 * byteAt m offset + 256 * byteAt m (offset + 1) + byteAt m (offset + 2)

/-- Where the kind byte of an entry stands (Table 12-2). -/
def kindAt (e : Nat) : Nat := 0x10 + 13 * e

/-- What R165 asks of the field at an offset below 10H. -/
abbrev headerAccepts (m : Record) (offset : Nat) : Prop :=
  (offset = 0x00 → byteAt m 0x00 ≤ 15) ∧
  (offset = 0x01 → 2 ≤ byteAt m 0x01 ∧ byteAt m 0x01 ≤ 16 ∧ byteAt m 0x00 < byteAt m 0x01) ∧
  (offset = 0x02 → byteAt m 0x02 ≤ 1) ∧
  (offset = 0x03 → byteAt m 0x03 ≤ 3) ∧
  (offset = 0x04 → byteAt m 0x04 ≠ 0) ∧
  (offset = 0x05 → byteAt m 0x05 ≠ 0) ∧
  (offset = 0x06 → 2 ≤ byteAt m 0x06 ∧ byteAt m 0x06 ≤ 15) ∧
  (offset = 0x07 → 3 ≤ byteAt m 0x07 ∧ byteAt m 0x07 ≤ 63) ∧
  (offset = 0x08 → byteAt m 0x08 ≤ 3) ∧
  (0x0A ≤ offset ∧ offset ≤ 0x0F → byteAt m offset = 0)

/-- What R166 asks of the field of entry e that begins at an offset: kind byte, preset, ceiling, H, L. -/
abbrev entryAccepts (m : Record) (e : Fin 32) (offset : Nat) : Prop :=
  (offset = kindAt e →
    byteAt m (kindAt e) % 4 ≤ 2 ∧ byteAt m (kindAt e) / 4 % 32 = 0 ∧
    (byteAt m (kindAt e) % 4 = 0 → byteAt m (kindAt e) < 128) ∧
    (e = 31 → ∃ used : Fin 32, byteAt m (kindAt used) % 4 ≠ 0)) ∧
  (offset = kindAt e + 1 → byteAt m (kindAt e) % 4 = 0 → threeAt m (kindAt e + 1) = 0) ∧
  (offset = kindAt e + 4 →
    if byteAt m (kindAt e) % 4 = 2 then
      1 ≤ threeAt m (kindAt e + 4) ∧ threeAt m (kindAt e + 1) ≤ threeAt m (kindAt e + 4)
    else threeAt m (kindAt e + 4) = 0) ∧
  (offset = kindAt e + 7 →
    if 128 ≤ byteAt m (kindAt e) then
      byteAt m (kindAt e) % 4 = 2 → threeAt m (kindAt e + 7) ≤ threeAt m (kindAt e + 4)
    else threeAt m (kindAt e + 7) = 0) ∧
  (offset = kindAt e + 10 →
    if 128 ≤ byteAt m (kindAt e) then threeAt m (kindAt e + 10) < threeAt m (kindAt e + 7)
    else threeAt m (kindAt e + 10) = 0)

/-- What R167 asks of the byte of a map that stands at an offset, the map's entry byte standing at `at_`: a map that its
mode uses names a non-OFF entry with a weight from 1 to 15 and either sign, or none beside 00H; any other is 00H. -/
abbrev mapAccepts (m : Record) (at_ : Nat) (used : Prop) [Decidable used] (offset : Nat) : Prop :=
  (offset = at_ →
    if used then byteAt m at_ = 0xFF ∨ (byteAt m at_ ≤ 31 ∧ byteAt m (kindAt (byteAt m at_)) % 4 ≠ 0)
    else byteAt m at_ = 0) ∧
  (offset = at_ + 1 →
    if used ∧ byteAt m at_ ≠ 0xFF then byteAt m (at_ + 1) % 16 ≠ 0 ∧ byteAt m (at_ + 1) / 16 % 8 = 0
    else byteAt m (at_ + 1) = 0)

/-- What R167 asks of the field of input i that begins at an offset: mode byte, second byte, the two maps. -/
abbrev inputAccepts (m : Record) (i : Fin 8) (offset : Nat) : Prop :=
  let at_ := 0x1B0 + 6 * i.val
  let mode := byteAt m at_
  (offset = at_ →
    if i.val % 2 = 0 then mode ≤ 2 else mode ≤ 3 ∧ mode ≠ 2 ∧ (mode = 3 ↔ byteAt m (at_ - 6) = 2)) ∧
  (offset = at_ + 1 →
    byteAt m (at_ + 1) / 16 ≤ 4 ∧ (mode = 1 → byteAt m (at_ + 1) % 16 ≤ 2) ∧
    (mode = 2 → byteAt m (at_ + 1) % 16 ≤ 1) ∧ (mode = 0 ∨ mode = 3 → byteAt m (at_ + 1) % 16 = 0) ∧
    (mode = 0 → byteAt m (at_ + 1) / 16 = 0)) ∧
  mapAccepts m (at_ + 2) (mode = 1 ∨ mode = 2) offset ∧ mapAccepts m (at_ + 4) (mode = 2) offset

/-- What R168 asks of the field of output o that begins at an offset: source, entry, mode byte, pulse width. -/
abbrev outputAccepts (m : Record) (o : Fin 8) (offset : Nat) : Prop :=
  let at_ := 0x1E0 + 4 * o.val
  let source := byteAt m at_
  let mode := byteAt m (at_ + 2) % 16
  (offset = at_ → source ≤ 2) ∧
  (offset = at_ + 1 →
    if source = 1 then byteAt m (at_ + 1) ≤ 31 ∧ 128 ≤ byteAt m (kindAt (byteAt m (at_ + 1)))
    else byteAt m (at_ + 1) = 0) ∧
  (offset = at_ + 2 →
    byteAt m (at_ + 2) / 16 % 8 = 0 ∧ if source = 1 then 1 ≤ mode ∧ mode ≤ 5 else mode = 0) ∧
  (offset = at_ + 3 →
    if source = 1 then 3 ≤ mode → byteAt m (at_ + 3) ≠ 0 else byteAt m (at_ + 3) = 0)

/-- The field that begins at an offset holds what R165 to R168 ask of it; where none begins, nothing is asked. -/
abbrev acceptsAt (m : Record) (offset : Nat) : Prop :=
  headerAccepts m offset ∧ (∀ e : Fin 32, entryAccepts m e offset) ∧ (∀ i : Fin 8, inputAccepts m i offset) ∧
  (∀ o : Fin 8, outputAccepts m o offset)

/-! ### What the settings are in the bytes of a record (Table 12-2) -/

/-- The station's settings from the bytes below 10H, with Tables 2-4 and 6-2 for the two codes that name a time. -/
abbrev headerReads (m : Record) : Prop :=
  m.stationNumber = byteAt m 0x00 ∧ m.clusterSize = byteAt m 0x01 ∧
  (m.foundingAllowed = true ↔ byteAt m 0x02 % 2 = 1) ∧
  (byteAt m 0x03 = 0 → m.halfPeriod = 5) ∧ (byteAt m 0x03 = 1 → m.halfPeriod = 10) ∧
  (byteAt m 0x03 = 2 → m.halfPeriod = 20) ∧ (byteAt m 0x03 = 3 → m.halfPeriod = 50) ∧
  m.roundInterval = byteAt m 0x04 ∧ m.stallLimit = 10 * byteAt m 0x05 ∧
  m.objectionLimit = byteAt m 0x06 ∧ m.foundingSilence = byteAt m 0x07 ∧
  (byteAt m 0x08 ≤ 3 → m.samplePeriod = 2 ^ byteAt m 0x08) ∧
  m.passageLimit = if byteAt m 0x09 = 0 then none else some (2 * byteAt m 0x09)

/-- The settings of entry e from its record. -/
abbrev entryReads (m : Record) (e : Entry) : Prop :=
  let at_ := kindAt e.val
  (byteAt m at_ % 4 = 0 → m.kind e = .off) ∧ (byteAt m at_ % 4 = 1 → m.kind e = .count) ∧
  (byteAt m at_ % 4 = 2 → m.kind e = .level) ∧ (m.watched e = true ↔ 128 ≤ byteAt m at_) ∧
  (m.preset e).toNat = threeAt m (at_ + 1) ∧ (m.ceiling e).toNat = threeAt m (at_ + 4) ∧
  (m.watchHigh e).toNat = threeAt m (at_ + 7) ∧ (m.watchLow e).toNat = threeAt m (at_ + 10)

/-- A map from its entry byte, at `at_`, and its sign-and-weight byte. -/
abbrev mapReads (m : Record) (at_ : Nat) (map : CountMap) : Prop :=
  (∀ e : Entry, byteAt m at_ = e.val → map.entry = some e) ∧ (byteAt m at_ = 0xFF → map.entry = none) ∧
  map.amount = if 128 ≤ byteAt m (at_ + 1) then -((byteAt m (at_ + 1) % 16 : Nat) : Int)
    else ((byteAt m (at_ + 1) % 16 : Nat) : Int)

/-- The settings of input i from its record, with Table 6-3 for the settle code. -/
abbrev inputReads (m : Record) (i : Fin 8) : Prop :=
  let at_ := 0x1B0 + 6 * i.val
  (byteAt m at_ = 0 → m.inputMode i = .unused) ∧ (byteAt m at_ = 1 → m.inputMode i = .single) ∧
  (byteAt m at_ = 2 → m.inputMode i = .pairA) ∧ (byteAt m at_ = 3 → m.inputMode i = .pairB) ∧
  (byteAt m (at_ + 1) / 16 ≤ 4 → m.settleCount i = 2 ^ (byteAt m (at_ + 1) / 16)) ∧
  (byteAt m (at_ + 1) % 16 = 0 → m.edgeSelect i = .rising ∧ m.blockedLevel i = .low) ∧
  (byteAt m (at_ + 1) % 16 = 1 → m.edgeSelect i = .falling ∧ m.blockedLevel i = .high) ∧
  (byteAt m (at_ + 1) % 16 = 2 → m.edgeSelect i = .both) ∧
  mapReads m (at_ + 2) (m.firstMap i) ∧ mapReads m (at_ + 4) (m.secondMap i)

/-- The settings of output o from its record. -/
abbrev outputReads (m : Record) (o : Fin 8) : Prop :=
  let at_ := 0x1E0 + 4 * o.val
  (byteAt m at_ = 0 → m.outputSource o = .none) ∧ (byteAt m at_ = 1 → m.outputSource o = .watch) ∧
  (byteAt m at_ = 2 → m.outputSource o = .local) ∧
  (∀ e : Entry, byteAt m (at_ + 1) = e.val → m.outputEntry o = e) ∧
  m.safeLevel o = (if 128 ≤ byteAt m (at_ + 2) then .high else .low) ∧
  (byteAt m (at_ + 2) % 16 = 1 → m.outputMode o = .level) ∧
  (byteAt m (at_ + 2) % 16 = 2 → m.outputMode o = .levelInverted) ∧
  (byteAt m (at_ + 2) % 16 = 3 → m.outputMode o = .pulseOnReach) ∧
  (byteAt m (at_ + 2) % 16 = 4 → m.outputMode o = .pulseOnClear) ∧
  (byteAt m (at_ + 2) % 16 = 5 → m.outputMode o = .pulseBoth) ∧ m.pulseWidth o = byteAt m (at_ + 3)

/-- Every setting that the other blocks read, from the bytes of the record. -/
abbrev settingsRead (m : Record) : Prop :=
  headerReads m ∧ (∀ e : Entry, entryReads m e) ∧ (∀ i : Fin 8, inputReads m i) ∧ (∀ o : Fin 8, outputReads m o)

/-- Whether a reception result is one that R57 and R58 allow under the settings: a valid frame carries a value within
its entry's range, and its foreign mark is the comparison with the own digest. -/
def resultSound (m : Record) (digest : Byte) : SlotResult → Bool
  | .valid f foreign => carryInRange m f.carryIndex f.carryValue && foreign == decide (f.digest ≠ digest)
  | .silent | .own _ | .invalid => true

/-- R47, R57 and R58 over the reception results held. -/
abbrev ResultsWf (s : State) : Prop :=
  ∀ result ∈ s.frame.results, resultSound s.settings s.setup.digest result = true

/-- The law of R3: every LEVEL entry lies within 0 to its ceiling, at a valid replica and at any other. -/
abbrev ValuesWf (s : State) : Prop :=
  ∀ e : Entry, s.settings.kind e = .level → s.replica.entries[e].value ≤ s.settings.ceiling e

/-- The station states whose replica is stale (R20, Table 1-4). -/
def keepsStale : StationState → Bool
  | .parked | .incompatible | .fault => true
  | .setup | .listen | .joining | .member => false

/-- R5, R20 and R51: the replica is stale in PARKED, INCOMPATIBLE and FAULT alone; a valid one knows every non-OFF entry
and CS, and the carry cursor names a non-OFF entry. -/
abbrev ValidWf (s : State) : Prop :=
  s.replica.stale = keepsStale s.member.state ∧
  (s.valid = true → s.replica.csKnown = true ∧
    (∀ e : Entry, s.settings.kind e ≠ .off → s.replica.entries[e].known = true) ∧
    s.settings.kind s.member.cursor ≠ .off)

/-- The law of R92, with the streak of a listener. -/
abbrev StreakWf (s : State) : Prop :=
  (s.valid = true → s.member.streak < s.settings.objectionLimit) ∧
  (s.member.state = .listen → s.member.streak = 0)

/-- The law of R125: at a valid replica a watched entry at or above H is ABOVE, and one at or below L is BELOW. -/
abbrev WatchesWf (s : State) : Prop :=
  s.valid = true → ∀ e : Entry, s.settings.watched e = true →
    (s.settings.watchHigh e ≤ readValue s.settings s.replica e → s.watches[e] = .above) ∧
    (readValue s.settings s.replica e ≤ s.settings.watchLow e → s.watches[e] = .below)

/-- R128 to R133 once a record is committed: a NONE output stands at its safe level and a LOCAL output at its latch,
neither with a pulse; a WATCH output stands at its safe level without a pulse while no replica is valid, follows its
watch state in the level modes, and is on exactly during a pulse in the pulse modes. -/
abbrev OutputsWf (s : State) : Prop :=
  s.setup.committed = true → ∀ o : Fin 8,
    (s.settings.outputSource o = .none → s.outputs[o].level = s.settings.safeLevel o ∧ s.outputs[o].pulse = none) ∧
    (s.settings.outputSource o = .local → s.outputs[o].latch = some s.outputs[o].level ∧ s.outputs[o].pulse = none) ∧
    (s.settings.outputSource o = .watch → s.valid = false →
      s.outputs[o].level = s.settings.safeLevel o ∧ s.outputs[o].pulse = none) ∧
    (s.settings.outputSource o = .watch → s.valid = true → (s.settings.outputMode o).followsLevel = true →
      s.outputs[o].level = levelFor s.settings o s.watches[s.settings.outputEntry o] ∧ s.outputs[o].pulse = none) ∧
    (s.settings.outputSource o = .watch → s.valid = true → (s.settings.outputMode o).followsLevel = false →
      s.outputs[o].level = if s.outputs[o].pulse.isSome then onLevel s.settings o else s.settings.safeLevel o)

/-- R63, R66 and R73: the Outbox names no OFF entry. -/
abbrev OutboxNamesUsed (s : State) : Prop :=
  (∀ e : Entry, s.outbox.pending[e] ≠ 0 → s.settings.kind e ≠ .off) ∧
  (∀ d ∈ s.outbox.flightDeltas, s.settings.kind d.entry ≠ .off) ∧
  (∀ e ∈ s.outbox.zeroList ++ s.outbox.flightZeros, s.settings.kind e ≠ .off)

/-- Every law of the device together. -/
abbrev Lawful (s : State) : Prop :=
  SetupWf s ∧ LinkWf s ∧ OutboxWf s ∧ NoticesWf s ∧ ResultsWf s ∧ ValuesWf s ∧ ValidWf s ∧ StreakWf s ∧
  WatchesWf s ∧ OutputsWf s ∧ OutboxNamesUsed s ∧ s.snapshots.length ≤ 4

/-- The marks that a passage state implies (Table 7-3). -/
def impliedMarks : PassageState → Option (Bool × Bool)
  | .idle => some (false, false)
  | .a1 => some (true, false)
  | .abFwd => some (true, true)
  | .b2Fwd => some (false, true)
  | .b1 => some (false, true)
  | .abRev => some (true, true)
  | .a2Rev => some (true, false)
  | .stuck => none

/-- R102, R108, R114 and Table 7-3: an unused input and a detector that is not in use stand at their reset values, run
counts stay below 16, marks agree with the passage state and with the filtered levels, and the passage timer runs in
no other state than the six between IDLE and STUCK. -/
abbrev CountingWf (s : State) : Prop :=
  SetupWf s ∧
  (∀ i : Fin 8, s.inputs.inputs[i].run < 16 ∧
    (s.settings.inputMode i = .unused → s.inputs.inputs[i] = { primed := false, level := .low, run := 0 })) ∧
  (∀ p : Fin 4,
    (s.settings.pairInUse p = false → s.detectors[p] = Detector.reset) ∧
    (s.detectors[p].state = .stuck ∨
      impliedMarks s.detectors[p].state = some (s.detectors[p].markA, s.detectors[p].markB)) ∧
    (s.detectors[p].timer.isSome = true → s.detectors[p].state ≠ .idle ∧ s.detectors[p].state ≠ .stuck) ∧
    (s.inputs.inputs[pairA p].primed = true → s.settings.pairInUse p = true →
      s.detectors[p].markA = decide (s.inputs.inputs[pairA p].level = s.settings.blockedLevel (pairA p)) ∧
      s.detectors[p].markB = decide (s.inputs.inputs[pairB p].level = s.settings.blockedLevel (pairA p))) ∧
    (s.settings.pairInUse p = true → s.inputs.inputs[pairA p].primed = s.inputs.inputs[pairB p].primed) ∧
    (s.inputs.inputs[pairA p].primed = false → s.detectors[p] = Detector.reset))

/-- The state that a request leaves: `t`, with the tap of `s` in ANSWER and the answer `a` fixed, the result byte in the
shift register; its first bit stands on TDO at once in the formats with FMT0 low (R147, R150, R151). The level of TCLK, the empty register, the moment of that first bit and the level of a 1
rest on entries 30, 31, 35 and 36. -/
def answered (s t : State) (code : Byte) (operands : List Byte) (a : Answer) : State :=
  let edge := s.tap.toSamplingEdge
  { t with tap := { edge with
      state := .answer, shiftIn := 0, shiftOut := a.result.code, bits := 0, placed := 0, code := some code
      operands := operands, answer := some a, sent := 0, early := false
      tdo := if s.tap.fmt0 = .low then .bit (Level.ofBit (a.result.code.getLsbD 7)) else edge.tdo } }

/-- An answer that may be shifted out after 8 µs, with a result and reply bytes (R159). -/
def quickly (result : Result) (reply : List Byte) : Answer :=
  { result := result, reply := reply, delivers := none, wait := 8000 }

/-- The operand bytes of a request, by its code and the operand bytes at hand (R150, Table 10-5). -/
def operandBytes (code : Byte) (operands : List Byte) : Nat :=
  if code ∈ ([0x02, 0x03, 0x11] : List Byte) then 1
  else if code ∈ ([0x06, 0x13] : List Byte) then 2
  else if code ∈ ([0x12, 0x21] : List Byte) then 3
  else if code = 0x20 then
    let length := (operands[2]?.getD 0).toNat
    if length ≤ 32 then 3 + length else 3
  else 0

/-- The state that entry to LISTEN from OFF leaves: R82, R19, R124 and R131, the Link controller in HOLD when LMARK is
low and in SYNC when it is high, and the STATE_CHANGED notice (R25, R26, R79, R83, R99). -/
def listensAnew (s : State) (m : Record) (cause : Byte) (lmark lbeat : Level) : State :=
  { s with
    member := { s.member with
      state := .listen, streak := 0, silence := 0, roster := Vector.replicate 16 .absent, fresh := true }
    replica := Replica.empty
    watches := Vector.replicate 32 .below
    frame := { s.frame with strike := false }
    outputs := outputsWithoutValidity m s.outputs
    link := match lmark with
      | .low => { s.link with
          state := .hold, roundTimer := some (m.read 0x04).toNat, stuckTimer := none, half := .stopped
          holdLmark := true, holdLbeat := false, holdLdata := false, lbeat := lbeat }
      | .high => { s.link with
          state := .sync, roundTimer := some (4 * (m.read 0x04).toNat), lbeat := lbeat }
    notices := postTo s.notices
      { kind := .stateChanged, cs := none, subject := some cause
        value := some (tallyOfBytes 0 s.member.state.code 0x01) } }

/-- A rise of LBEAT can reach the station in a link state: LBEAT is low and the station does not hold it (R22, R29). -/
abbrev risesIn (state : LinkState) (s : State) : Prop :=
  s.link.state = state ∧ s.link.lbeat = .low ∧ s.link.holdLbeat = false

/-- The Link controller after a rise, before the bit sampled acts: the bit counted, the wait h begun, the BEAT stuck
timer restarted (R29, R41). -/
def risen (s : State) : Link :=
  { s.link with
    lbeat := .high, half := .beforeHold, stuckTimer := some (128 * s.settings.halfPeriod)
    bitCount := s.link.bitCount + 1 }

/-- The position after the last bit of a slot (R34). -/
def nextSlot (m : Record) (l : Link) : Link :=
  if l.slot + 1 < m.clusterSize then { l with slot := l.slot + 1, bit := 0, slotLength := none }
  else { l with state := .verdict }

/-- The last verdict edge can be taken: the station is in VERDICT and N - 1 verdict bits have been sampled (R38). -/
abbrev atClose (s : State) : Prop :=
  risesIn .verdict s ∧ s.settings.clusterSize = s.link.verdicts.length + 1

/-- The objector set of R38, with the level that the last verdict edge samples. -/
def objectorsWith (s : State) (ldata : Level) : List Nat :=
  (List.range s.settings.clusterSize).filter fun k =>
    s.link.presence[k]? == some true && (s.link.verdicts ++ [ldata])[k]? == some .low

/-- Whether the station's own frame was present in the round: it transmitted and its own slot is marked present. -/
abbrev ownFramePresent (s : State) : Prop :=
  s.transmits = true ∧ s.link.presence[s.settings.stationNumber]? = some true

/-- The notices of a round that a station in JOINING or MEMBER applies with its own frame present: the clamps of the
application, the limit notices, the snapshot's, one ZERO_DONE for each zero in flight, and the roster's, each with the CS
after the increment (R3, R69, R101, R126, R137, R140). -/
def commitPosts (s : State) : Posts :=
  let m := s.settings
  let applied := s.replica.applyRound m s.roundBusiness
  let cs := some applied.1.cs
  let requesters := freezeRequesters s.frame.results s.outbox.flightFreeze s.link.presence
  { replica := applied.2.map fun cut =>
      { kind := .levelClamped, cs := cs, subject := some (BitVec.ofNat 8 cut.1.val)
        value := some (BitVec.ofNat 24 cut.2) }
    watch := limitNotices m applied.1 cs s.watches (evaluateWatches m applied.1 s.watches)
    snapshot := if requesters = [] then [] else
      [{ kind := if s.snapshots.length < 4 then .snapshotTaken else .snapshotDropped, cs := cs, subject := none
         value := some ((stationSet requesters).setWidth 24) }]
    outbox := s.outbox.flightZeros.map fun e =>
      { kind := .zeroDone, cs := cs, subject := some (BitVec.ofNat 8 e.val), value := none }
    membership := rosterNotices m cs s.member.fresh s.member.roster (rosterAtClose m true s.link.presence) }

/-- The Snapshot queue after a round that a station in JOINING or MEMBER applies: one record more when a present frame
carried FREEZE and fewer than 4 are held (R136, R137). -/
def commitSnapshots (s : State) : List Snapshot :=
  let applied := (s.replica.applyRound s.settings s.roundBusiness).1
  let requesters := freezeRequesters s.frame.results s.outbox.flightFreeze s.link.presence
  if requesters = [] ∨ 4 ≤ s.snapshots.length then s.snapshots
  else s.snapshots ++ [{
    cs := applied.cs, requesters := stationSet requesters
    values := Vector.ofFn fun e => if s.settings.kind e = .off then 0 else applied.entries[e].value }]

/-- The ROUND_VETOED notice with the objector set (R70). -/
def vetoNotice (s : State) (ldata : Level) : Notice :=
  { kind := .roundVetoed, cs := if s.valid then some s.replica.cs else none, subject := none
    value := some ((stationSet (objectorsWith s ldata)).setWidth 24) }

/-- The STATE_CHANGED notice with the code of its cause and the codes of the two states (R79, Table 12-6). -/
def changeNotice (cs : Option Half) (cause left entered : Byte) : Notice :=
  { kind := .stateChanged, cs := cs, subject := some cause, value := some (tallyOfBytes 0 left entered) }

/-- The Link controller in the barrier that a close or an abort begins (R39, R42). -/
def inBarrier (s : State) (l : Link) : Link :=
  { l with
    state := .hold, roundTimer := some (s.settings.read 0x04).toNat, stuckTimer := none, half := .stopped
    holdLmark := true, holdLbeat := false, holdLdata := false }

/-! ### What a sample instant does -/

/-- Whether the filtered level of input i changes at a sample instant: S samples running have differed from it (R105). -/
abbrev acceptsChange (s : State) (levels : Byte) (i : Fin 8) : Prop :=
  s.settings.inputMode i ≠ .unused ∧ s.inputs.inputs[i].primed = true ∧
  s.inputs.inputs[i].level ≠ Level.ofBit (levels.getLsbD i.val) ∧
  s.settings.settleCount i ≤ s.inputs.inputs[i].run + 1

/-- The state once every used input has been sampled, primed or filtered, and every pair that is primed at this instant
has started its detector, before any event is taken (R103 to R105, R108, R115). -/
def samplesRead (s : State) (levels : Byte) : State :=
  let sample (i : Fin 8) : Level := Level.ofBit (levels.getLsbD i.val)
  let inputs : Vector Input 8 := Vector.ofFn fun i : Fin 8 =>
    if s.settings.inputMode i = .unused then s.inputs.inputs[i]
    else if s.inputs.inputs[i].primed = false then { primed := true, level := sample i, run := 0 }
    else if s.inputs.inputs[i].level = sample i then { s.inputs.inputs[i] with run := 0 }
    else if acceptsChange s levels i then { primed := true, level := sample i, run := 0 }
    else { s.inputs.inputs[i] with run := s.inputs.inputs[i].run + 1 }
  { s with
    inputs := { s.inputs with inputs := inputs }
    detectors := Vector.ofFn fun p : Fin 4 =>
      if s.settings.pairInUse p = true ∧ s.inputs.inputs[pairA p].primed = false then
        let blockedA := decide (sample (pairA p) = s.settings.blockedLevel (pairA p))
        let blockedB := decide (sample (pairB p) = s.settings.blockedLevel (pairA p))
        { state := if blockedA || blockedB then .stuck else .idle, markA := blockedA, markB := blockedB, timer := none }
      else s.detectors[p] }

/-- One addition of the counting side to a pending amount: held to -32767..+32767, with one PENDING_SATURATED and the
flag set when an amount is lost while the flag is clear (R62; the amount lost by entry 13). -/
def addsTo (s : State) (e : Entry) (amount : Int) : State :=
  let sum := s.outbox.pending[e] + amount
  let held := max (-32767) (min 32767 sum)
  { s with
    outbox := { s.outbox with
      pending := s.outbox.pending.set e held
      saturated := if sum = held then s.outbox.saturated else s.outbox.saturated.set e true }
    notices :=
      if sum = held ∨ s.outbox.saturated[e] = true then s.notices
      else postTo s.notices
        { kind := .pendingSaturated, cs := if s.valid then some s.replica.cs else none
          subject := some (BitVec.ofNat 8 e.val), value := some (BitVec.ofNat 24 (sum - held).natAbs) } }

/-- What a map adds: its signed amount to its entry, or nothing when it names none (R110, R117). -/
def addsMap (s : State) (map : CountMap) : State :=
  match map.entry with
  | some e => addsTo s e map.amount
  | none => s

/-- What pair p makes of a change of one of its inputs: its detector takes it, and a passage is added (R111, R117). -/
def pairTakes (s : State) (p : Fin 4) (change : PairChange) : State :=
  let taken := s.detectors[p].take s.settings.passageLimit change
  let moved : State := { s with detectors := s.detectors.set p taken.1 }
  match taken.2 with
  | .none => moved
  | .forward => addsMap moved (s.settings.firstMap (pairA p))
  | .reverse => addsMap moved (s.settings.secondMap (pairA p))

/-- The event of input i, its new filtered level in place: a single input adds its map when its edge select counts the
change (R109, R110), an input of a pair hands it to the detector (R111). -/
def takesEvent (s : State) (i : Fin 8) : State :=
  let now := s.inputs.inputs[i].level
  let blocked := decide (now = s.settings.blockedLevel (pairA (pairOf i)))
  match s.settings.inputMode i with
  | .unused => s
  | .single => match s.settings.edgeSelect i with
    | .rising => if now = .high then addsMap s (s.settings.firstMap i) else s
    | .falling => if now = .low then addsMap s (s.settings.firstMap i) else s
    | .both => addsMap s (s.settings.firstMap i)
  | .pairA => pairTakes s (pairOf i) (if blocked then .aBlocks else .aClears)
  | .pairB => pairTakes s (pairOf i) (if blocked then .bBlocks else .bClears)

/-- Sampling edges that clock bits in, the i-th with TDI at the i-th bit (high for a 1, entry 36), `elapsed i` ns after the edge before it. -/
def clocked (bits : List Bool) (elapsed : Nat → Nat) : List Instr :=
  bits.zipIdx.map fun (bit, i) => .tclkSamplingEdge (Level.ofBit bit) (elapsed i)

/-- The machine reaches `t` from `s` in `n` steps, none of which stops. -/
abbrev reaches (n : Nat) (s t : State) : Prop := Sys2Proof.core.run n s = .next t

/-- What a run of tap edges leaves of a state: everything but the queue and the tap. -/
def tapAt (s : State) (rest : List Instr) (t : Tap) : State := { s with pending := rest, tap := t }

end Sys2Proof.Safety
end

