-- ==== Sys2Proof/WellFormed.lean ====
section
/-! DEFINITION. The commands that the world can give: operands that agree with one another. The meanings
are total and do not rest on this check. -/

namespace Sys2Proof

/-- The data bytes that follow a SETUP_WRITE length byte: that many for 1 to 32, none otherwise (R150). -/
def setupWriteData (length : Byte) : Nat :=
  if 1 ≤ length.toNat ∧ length.toNat ≤ 32 then length.toNat else 0

/-- The request codes of Table 12-4. -/
def knownRequestCodes : List Byte :=
  [0x01, 0x02, 0x03, 0x04, 0x05, 0x06, 0x07, 0x10, 0x11, 0x12, 0x13, 0x14, 0x15, 0x20, 0x21, 0x22]

/-- A command is well formed when its operands agree with one another: UNKNOWN's code names no request
(R149), SETUP_WRITE carries as many data bytes as its length gives (R150), and the order of a sample
instant names no input twice (R107). -/
def Instr.wellFormed : Instr → Bool
  | .unknown code => !knownRequestCodes.contains code
  | .setupWrite _ length data => data.length == setupWriteData length
  | .sampleInstant _ order => decide order.Nodup
  | .powerOnReset | .resetPinFall | .resetEnd _ _ | .tselFall _ | .tselRise | .status | .readEntry _
  | .readOutbox _ | .readRoster | .takeNotice | .takeNoticeDelivered | .readSnapshot _ _
  | .releaseSnapshot | .freeze | .zero _ | .adjust _ _ | .setOutput _ _ | .leave | .rejoin _ _
  | .setupRead _ _ | .setupCommit _ _ | .syncLmarkFall | .syncLbeatChange | .quietTimerExpiry
  | .roundTimerExpiry | .stallTimerExpiry | .waitLmarkRise | .lbeatHalfPeriodExpiry | .ownFrameSent _
  | .frameReceived _ | .roundClose _ _ | .lmarkFallInRound _ | .beatStuckExpiry _
  | .passageTimerExpiry _ | .pulseTimerExpiry _ | .lbeatFall | .lbeatRise _
  | .tclkSamplingEdge _ _ => true

end Sys2Proof
end

