-- ==== Sys2Proof/Certificates/Slice0/Obligations.lean ====
section
/-! DEFINITION. The statements about the model, for the provers. Each docstring names the rules it formalises, and
any clause that rests on a choice of the model names its log entry. -/

open Sys2Proof Sys2Proof.Machine Sys2Proof.Safety

/-! ### The machine -/

/-- One step runs the command at the front of the queue on the state with the queue's rest. On an empty queue the step
takes the shifting edge of TCLK that is due in a transaction, and else leaves the station as it is (the model's choice,
entries 5 and 30). -/
def Obligations.StepTakesFrontCommand : Prop :=
  (∀ (c : Instr) (rest : List Instr) (s : State),
    step { s with pending := c :: rest } = exec c { s with pending := rest }) ∧
  ∀ s : State, s.pending = [] →
    (s.tap.shiftDue = true → step s = .next { s with tap := s.tap.shiftEdge }) ∧
    (s.tap.shiftDue = false → step s = .next s)

/-- Every command has a next state in every state, and leaves the queue of those that wait as it is. That a command whose
event cannot arise in the state answers a next state too is the model's choice (entry 4). What each next state holds
beyond the queue is said by the statements on each command. -/
def Obligations.EveryCommandAnswers : Prop :=
  ∀ (c : Instr) (s : State), ∃ t, exec c s = .next t ∧ t.pending = s.pending

/-! ### Resets -/

/-- What a power-on reset leaves, by Tables 1-2, 2-3, 3-1, 4-1, 5-2, 6-1, 7-2, 8-1, 8-3, 10-4 and 11-1. -/
def Obligations.PowerOnResetValues : Prop :=
  let s := State.reset
  (∀ e : Entry, s.replica.entries[e] = { value := 0, known := false } ∧ s.outbox.pending[e] = 0 ∧
    s.outbox.saturated[e] = false ∧ s.watches[e] = .below ∧ s.watchState e = none) ∧
  s.replica.cs = 0 ∧ s.replica.csKnown = false ∧ s.replica.stale = false ∧ s.valid = false ∧
  s.outbox.cursor = 0 ∧ s.outbox.zeroList = [] ∧ s.outbox.freeze = false ∧ s.outbox.leave = false ∧
  s.outbox.flightDeltas = [] ∧ s.outbox.flightZeros = [] ∧ s.outbox.flightFreeze = false ∧
  s.outbox.flightLeave = false ∧
  s.link.state = .off ∧ s.link.roundTimer = none ∧ s.link.stallTimer = none ∧ s.link.stuckTimer = none ∧
  s.link.stalled = false ∧ s.link.slot = 0 ∧ s.link.bit = 0 ∧ s.link.slotLength = none ∧ s.link.bitCount = 0 ∧
  s.link.presence = [] ∧ s.link.verdicts = [] ∧
  s.link.holdLmark = false ∧ s.link.holdLbeat = false ∧ s.link.holdLdata = false ∧
  s.frame.sending = none ∧ s.frame.readback = [] ∧ s.frame.receiving = [] ∧ s.frame.results = [] ∧
  s.frame.object = false ∧ s.frame.strike = false ∧
  s.member.state = .setup ∧ s.member.streak = 0 ∧ s.member.silence = 0 ∧
  (∀ k : Fin 16, s.member.roster[k] = .absent) ∧ s.member.fresh = false ∧ s.member.cursor = 0 ∧
  s.inputs.clock = false ∧ (∀ i : Fin 8, s.inputs.inputs[i] = { primed := false, level := .low, run := 0 }) ∧
  (∀ p : Fin 4, s.detectors[p] = { state := .idle, markA := false, markB := false, timer := none }) ∧
  (∀ o : Fin 8, s.outputs[o].level = .low ∧ s.outputs[o].pulse = none ∧ s.outputs[o].latch = some .low) ∧
  s.snapshots = [] ∧ s.notices = [] ∧ s.attnHeld = false ∧
  s.tap.state = .idle ∧ s.tap.bits = 0 ∧ s.tap.code = none ∧ s.tap.answer = none ∧ s.tap.deselect = 2000 ∧
  s.tap.tdo = .highZ ∧
  (∀ offset : Fin 512, s.setup.record.read offset.val = 0x00) ∧ s.setup.committed = false ∧
  s.setup.digest = 0x00 ∧ s.setup.failure = 0xFFFF ∧ s.setup.cause = .powerOn

/-- POWER_ON_RESET clears the record and returns every block to its reset values in any state. RESET_PIN_FALL keeps the
record, drives every output at the safe level of the retained record, and returns every other block to its reset
values; a fall during a reset begins none (the model's choice, entry 18). RESET_END records the kind of the reset as
its cause and samples the straps, and changes nothing else; up to there the cause of the reset before it stays (DEDUCED
from R154, entry 28). The TSEL line keeps its level through a reset, that of TCLK stands at low outside a transaction,
and LBEAT counts as high until a transition says otherwise (the model's choices, entries 2, 30 and 3). -/
def Obligations.ResetsReturnEveryBlock : Prop :=
  (∀ s : State, exec .powerOnReset s = .next { State.reset with
    pending := s.pending, resetting := some .powerOn
    setup := { State.reset.setup with cause := s.setup.cause }
    tap := { State.reset.tap with tsel := s.tap.tsel, fmt1 := s.tap.fmt1, fmt0 := s.tap.fmt0 } }) ∧
  (∀ s : State,
    (s.resetting = none → exec .resetPinFall s = .next { State.reset with
      pending := s.pending, resetting := some .pin
      setup := { State.reset.setup with record := s.setup.record, cause := s.setup.cause }
      outputs := Vector.ofFn fun o : Fin 8 =>
        { level := s.setup.record.safeLevel o, pulse := none, latch := some (s.setup.record.safeLevel o) }
      tap := { State.reset.tap with tsel := s.tap.tsel, fmt1 := s.tap.fmt1, fmt0 := s.tap.fmt0 } }) ∧
    (s.resetting ≠ none → exec .resetPinFall s = .next s)) ∧
  (∀ (s : State) (kind : ResetKind) (fmt1 fmt0 : Level), s.resetting = some kind →
    exec (.resetEnd fmt1 fmt0) s = .next { s with
      resetting := none, setup := { s.setup with cause := kind }, tap := { s.tap with fmt1 := fmt1, fmt0 := fmt0 } })

/-! ### The tap -/

/-- The status byte carries its five fields at the bits of Table 12-3, with the codes of the station states there, bit 3
is clear, and it is never FFH. -/
def Obligations.StatusByteFields : Prop :=
  [StationState.setup, .listen, .joining, .member, .parked, .incompatible, .fault].map StationState.code =
    [0, 1, 2, 3, 4, 5, 6] ∧
  ∀ s : State,
    s.statusByte.getLsbD 7 = decide (s.setup.cause = .pin) ∧ s.statusByte.getLsbD 6 = s.link.stalled ∧
    s.statusByte.getLsbD 5 = decide (s.snapshots ≠ []) ∧ s.statusByte.getLsbD 4 = decide (s.notices ≠ []) ∧
    s.statusByte.getLsbD 4 = s.attnHeld ∧ s.statusByte.getLsbD 3 = false ∧
    s.statusByte.extractLsb' 0 3 = (s.member.state.code).setWidth 3 ∧ s.statusByte ≠ 0xFF

/-- A fall of TSEL forms the status byte and enters REQUEST once the deselect time has reached 2 µs, and enters SHUT
before that (R159); the time since the last tap event is an operand (the model's choice, entry 7). In the formats with
FMT0 low, TDO carries the first bit of the status byte at once (Table 10-2, R147), high for a 1 (the model's choice,
entry 36); in the formats with FMT0 high, TDO carries no bit before the first shifting edge (DEDUCED, entry 15). The
level of TCLK at the fall is taken with it, and stands at low outside a transaction (the model's choice, entry 30). A
rise returns the tap to IDLE with TDO released and the deselect time started afresh, and discards the request in
progress: nothing outside the tap changes. During a reset only the line moves (the model's choice, entry 19). -/
def Obligations.TselFramesTransactions : Prop :=
  (∀ (s : State) (elapsed : Nat) (tclk : Level), s.tap.tsel = .high →
    (s.resetting = none → 2000 ≤ s.tap.deselect + elapsed →
      exec (.tselFall { elapsed := elapsed, tclk := tclk }) s = .next { s with
        tap := { s.tap with
          state := .request, tsel := .low, shiftIn := 0, shiftOut := s.statusByte, bits := 0, code := none
          operands := [], answer := none, sent := 0, early := false, deselect := 2000, tclk := tclk, placed := 0
          tdo := if s.tap.fmt0 = .low then .bit (Level.ofBit (s.statusByte.getLsbD 7)) else .notPlaced } }) ∧
    (s.resetting = none → s.tap.deselect + elapsed < 2000 →
      exec (.tselFall { elapsed := elapsed, tclk := tclk }) s = .next { s with
        tap := { Tap.reset .low s.tap.fmt1 s.tap.fmt0 with
          state := .shut, deselect := s.tap.deselect + elapsed } }) ∧
    (s.resetting ≠ none → exec (.tselFall { elapsed := elapsed, tclk := tclk }) s =
      .next { s with tap := { s.tap with tsel := .low } })) ∧
  (∀ s : State, s.tap.tsel = .low →
    (s.resetting = none → exec .tselRise s = .next { s with
      tap := { Tap.reset .high s.tap.fmt1 s.tap.fmt0 with deselect := 0 } }) ∧
    (s.resetting ≠ none → exec .tselRise s = .next { s with tap := { s.tap with tsel := .high } }))

/-- The edges of TCLK by Table 10-2. A shifting edge is due in a transaction when TCLK stands where a sampling edge
leaves it: high in the formats whose two straps agree, low in the others. It places one bit of the byte being shifted
out on TDO, most significant first: with FMT0 low the one to be sampled next, with FMT0 high the first of the byte not
yet placed (so that a first bit that comes late stays late, DEDUCED, entry 15). A sampling edge comes after the
shifting edge that is still due (entry 30). It takes the bit on TDI, most significant first, in every state of a
transaction, and leaves TDO; at the first one of an answer clocked early (R159; the time is an operand, entry 7), FFH
takes the place of the answer. The one that ends a byte leaves the register of TDI empty (DEDUCED, entry 31) and starts
the next byte to be shifted out: 00H after a request byte that has operand bytes to follow (OPERANDS is entered), after
an operand byte that is not the last, and in TRAILING; the next answer byte, FFH in its place when clocked early, in
ANSWER, where the last byte leads to TRAILING. The edge that completes a request, and the one that ends a TAKE_NOTICE
answer not clocked early, are other commands, and this one leaves the state as it is there (the model's choice, entries
4 and 9). In IDLE and SHUT it has no effect. With FMT0 low the edge that ends a byte places the first bit of the next
byte itself, and a 1 is high on TDI and TDO (the model's choices, entries 35 and 36). -/
def Obligations.SamplingEdgeTakesOneBit : Prop :=
  (∀ t : Tap,
    let sampled : Level := if t.fmt1 = t.fmt0 then .high else .low
    (t.shiftDue = true ↔
      (t.state = .request ∨ t.state = .operands ∨ t.state = .answer ∨ t.state = .trailing) ∧ t.tclk = sampled) ∧
    t.shiftEdge = { t with
      tclk := if t.fmt1 = t.fmt0 then .low else .high, placed := t.placed + 1
      tdo := .bit (Level.ofBit (t.shiftOut.getLsbD (7 - if t.fmt0 = .low then t.bits else t.placed))) } ∧
    (t.shiftDue = true → t.toSamplingEdge = { t.shiftEdge with tclk := sampled }) ∧
    (t.shiftDue = false → t.toSamplingEdge = { t with tclk := sampled })) ∧
  ∀ (s : State) (tdi : Level) (elapsed : Nat),
    let edge := s.tap.toSamplingEdge
    let byte : Byte := (s.tap.shiftIn <<< 1) ||| (BitVec.ofBool tdi.bit).setWidth 8
    let taken : Tap := { edge with shiftIn := byte, bits := s.tap.bits + 1 }
    let ended (next : Byte) : Tap := { edge with
      shiftIn := 0, shiftOut := next, bits := 0, placed := 0
      tdo := if s.tap.fmt0 = .low then .bit (Level.ofBit (next.getLsbD 7)) else edge.tdo }
    (s.tap.state = .idle ∨ s.tap.state = .shut → exec (.tclkSamplingEdge tdi elapsed) s = .next s) ∧
    (s.tap.state = .request ∨ s.tap.state = .operands ∨ s.tap.state = .trailing → s.tap.bits < 7 →
      exec (.tclkSamplingEdge tdi elapsed) s = .next { s with tap := taken }) ∧
    (∀ a : Answer, s.tap.state = .answer → s.tap.answer = some a → s.tap.bits < 7 →
      (0 < s.tap.sent ∨ 0 < s.tap.bits ∨ a.wait ≤ elapsed →
        exec (.tclkSamplingEdge tdi elapsed) s = .next { s with tap := taken }) ∧
      (s.tap.sent = 0 → s.tap.bits = 0 → elapsed < a.wait →
        exec (.tclkSamplingEdge tdi elapsed) s =
          .next { s with tap := { taken with early := true, shiftOut := 0xFF } })) ∧
    (s.tap.state = .request → 7 ≤ s.tap.bits → exec (.tclkSamplingEdge tdi elapsed) s = .next (
      if byte ∈ ([0x02, 0x03, 0x06, 0x11, 0x12, 0x13, 0x20, 0x21] : List Byte) then
        { s with tap := { ended 0x00 with state := .operands, code := some byte, operands := [] } }
      else s)) ∧
    (∀ code : Byte, s.tap.state = .operands → s.tap.code = some code → 7 ≤ s.tap.bits →
      let operands := s.tap.operands ++ [byte]
      exec (.tclkSamplingEdge tdi elapsed) s = .next (
        if operandBytes code operands ≤ operands.length then s
        else { s with tap := { ended 0x00 with operands := operands } })) ∧
    (∀ a : Answer, s.tap.state = .answer → s.tap.answer = some a → s.tap.bits = 7 →
      let sent := s.tap.sent + 1
      let next : Byte := match a.bytes[sent]? with
        | some b => if s.tap.early = true then 0xFF else b
        | none => 0x00
      exec (.tclkSamplingEdge tdi elapsed) s = .next (
        if a.delivers ≠ none ∧ s.tap.early = false ∧ a.bytes.length ≤ sent then s
        else { s with tap := { ended next with
          state := if a.bytes.length ≤ sent then .trailing else .answer, sent := sent } })) ∧
    (s.tap.state = .trailing → 7 ≤ s.tap.bits →
      exec (.tclkSamplingEdge tdi elapsed) s = .next { s with tap := { ended 0x00 with shiftOut := s.tap.shiftOut } })

/-- A request clocked in bit by bit, most significant bit first, stands one sampling edge before its effect with its
code and operand bytes taken exactly, for every request and every number of operand bytes that R150 gives it; nothing
outside the tap has changed. A code that names no request stands there after its seven first bits. The requests are
those of Table 12-4, with the operand bytes of Table 10-5; a 16-bit operand is two bytes, the high one first. A 1 is
high on TDI (the model's choice, entry 36). -/
def Obligations.ClockedBytesReachRequest : Prop :=
  (∀ code : Byte, requestOf code = none ↔ code ∉ knownRequestCodes) ∧
  (∀ (r : Request) (operands : List Byte), r.operandCount operands = operandBytes r.code operands) ∧
  (∀ half : Half, bytesOfHalf half = [half.extractLsb' 8 8, half.extractLsb' 0 8]) ∧
  ∀ (s : State) (elapsed : Nat → Nat) (rest : List Instr),
    s.tap.state = .request → s.tap.bits = 0 →
    (∀ (r : Request) (operands : List Byte), r.operandCount operands = operands.length →
      ∃ t : Tap,
        reaches (8 * operands.length + 7)
          { s with pending := clocked (((r.code :: operands).flatMap bitsOf).dropLast) elapsed ++ rest }
          (tapAt s rest t) ∧
        t.completes r.code operands = true) ∧
    (∀ code : Byte, requestOf code = none →
      ∃ t : Tap,
        reaches 7 { s with pending := clocked ((bitsOf code).dropLast) elapsed ++ rest } (tapAt s rest t) ∧
        t.completes code [] = true)

/-- An answer leaves the station bit by bit: the result byte, the reply bytes after OK, then 00H for as long as it is
clocked; FFH in place of every byte of it when its first sampling edge comes before the wait has ended (R159). After
any number of sampling edges the shifting edge due next places the next bit on TDO, and nothing outside the tap has
changed; in an answer of TAKE_NOTICE that is not clocked early, after any number below the last edge of its last byte,
which is another command. The result codes are those of Table 12-5. The answer starts as a request leaves it: its
result byte in the register, no bit taken or placed, TCLK where the sampling edge left it (entry 30). A 1 is high on
TDO (the model's choice, entry 36). -/
def Obligations.AnswerLeavesBitByBit : Prop :=
  ([Result.ok, .empty, .full, .already, .refused, .badOperand, .badSetup, .unknown].map Result.code =
    [0x80, 0x81, 0x82, 0x83, 0x84, 0x85, 0x86, 0x87]) ∧
  (∀ a : Answer, a.bytes = a.result.code :: if a.result = .ok then a.reply else []) ∧
  ∀ (s : State) (a : Answer) (tdi : List Bool) (elapsed : Nat → Nat) (rest : List Instr),
    s.tap.state = .answer → s.tap.answer = some a → s.tap.bits = 0 → s.tap.sent = 0 →
    a.delivers = none ∨ elapsed 0 < a.wait ∨ tdi.length < 8 * a.bytes.length →
    s.tap.early = false → s.tap.shiftOut = a.result.code → s.tap.placed = 0 →
    s.tap.tclk = (if s.tap.fmt1 = s.tap.fmt0 then .high else .low) →
    ∃ t : Tap,
      reaches tdi.length { s with pending := clocked tdi elapsed ++ rest } (tapAt s rest t) ∧
      t.shiftDue = true ∧
      t.shiftEdge.tdo = .bit (Level.ofBit
        (((if elapsed 0 < a.wait then List.replicate a.bytes.length 0xFF else a.bytes).flatMap bitsOf)[tdi.length]?.getD
          false)) ∧
      (t.state = if 8 * a.bytes.length ≤ tdi.length then .trailing else .answer)

/-! ### Requests that read -/

/-- STATUS answers OK with the status byte formed anew, the two queue lengths, and the station number and N of the
committed record, both 0 before a commit. READ_ROSTER answers N, the sixteen marks with the lowest slot in the top
bits, the streak, the silence count, the CS and its flags. Nothing but the tap changes. How the tap is left rests on
entries 30, 31, 35 and 36. -/
def Obligations.StatusAndRosterReplies : Prop :=
  (∀ s : State, s.tap.completes 0x01 [] = true →
    exec .status s = .next (answered s s 0x01 [] (quickly .ok
      [s.statusByte, BitVec.ofNat 8 s.notices.length, BitVec.ofNat 8 s.snapshots.length,
       if s.setup.committed then s.setup.record.read 0x00 else 0,
       if s.setup.committed then s.setup.record.read 0x01 else 0]))) ∧
  (∀ s : State, s.tap.completes 0x04 [] = true → ∃ roster : BitVec 32, ∃ flags : Byte,
    exec .readRoster s = .next (answered s s 0x04 [] (quickly .ok
      [if s.setup.committed then s.setup.record.read 0x01 else 0,
       roster.extractLsb' 24 8, roster.extractLsb' 16 8, roster.extractLsb' 8 8, roster.extractLsb' 0 8,
       BitVec.ofNat 8 s.member.streak, BitVec.ofNat 8 s.member.silence,
       s.replica.cs.extractLsb' 8 8, s.replica.cs.extractLsb' 0 8, flags])) ∧
    (∀ slot : Fin 16, roster.extractLsb' (30 - 2 * slot.val) 2 = match s.member.roster[slot] with
      | .absent => 0
      | .present => 1
      | .self => 2) ∧
    flags.getLsbD 0 = (s.valid || s.replica.csKnown) ∧ flags.getLsbD 1 = s.replica.stale ∧ flags.extractLsb' 2 6 = 0)

/-- READ_ENTRY answers the value, which is 0 for an OFF entry, and the flags of Table 12-4: the known flag by the
station state (false in SETUP; true in JOINING and MEMBER; in LISTEN as adoption left it, for an OFF entry whether CS
is known; in the stale states as kept, for an OFF entry true), the stale flag, and the watch state, NONE without an
enabled watch and in SETUP. READ_OUTBOX answers the pending amount, the amount in flight and the flags of Table 12-4;
an OFF entry answers 0, 0 and NONE. An entry above 31 answers BAD_OPERAND. Nothing but the tap changes. How the tap is
left rests on entries 30, 31, 35 and 36. -/
def Obligations.EntryAndOutboxReplies : Prop :=
  (∀ (s : State) (entry : Byte), s.tap.completes 0x02 [entry] = true →
    (31 < entry.toNat →
      exec (.readEntry entry) s = .next (answered s s 0x02 [entry] (quickly .badOperand []))) ∧
    (∀ e : Entry, e.val = entry.toNat → ∃ value : Tally, ∃ flags : Byte,
      exec (.readEntry entry) s = .next (answered s s 0x02 [entry] (quickly .ok
        [value.extractLsb' 16 8, value.extractLsb' 8 8, value.extractLsb' 0 8, flags])) ∧
      (value = if s.settings.kind e = .off then 0 else s.replica.entries[e].value) ∧
      (flags.getLsbD 0 = match s.member.state with
        | .setup => false
        | .joining => true
        | .member => true
        | .listen => if s.settings.kind e = .off then s.replica.csKnown else s.replica.entries[e].known
        | .parked => decide (s.settings.kind e = .off) || s.replica.entries[e].known
        | .incompatible => decide (s.settings.kind e = .off) || s.replica.entries[e].known
        | .fault => decide (s.settings.kind e = .off) || s.replica.entries[e].known) ∧
      flags.getLsbD 1 = s.replica.stale ∧
      (flags.extractLsb' 2 2 =
        if s.settings.watched e = true then (if s.watches[e] = .above then 2 else 1) else 0) ∧
      (SetupWf s → s.member.state = .setup → value = 0 ∧ flags.extractLsb' 2 2 = 0) ∧
      flags.extractLsb' 4 4 = 0)) ∧
  (∀ (s : State) (entry : Byte), s.tap.completes 0x03 [entry] = true →
    (31 < entry.toNat →
      exec (.readOutbox entry) s = .next (answered s s 0x03 [entry] (quickly .badOperand []))) ∧
    (∀ e : Entry, e.val = entry.toNat → ∃ held flight : Half, ∃ flags : Byte,
      exec (.readOutbox entry) s = .next (answered s s 0x03 [entry] (quickly .ok
        [held.extractLsb' 8 8, held.extractLsb' 0 8, flight.extractLsb' 8 8, flight.extractLsb' 0 8, flags])) ∧
      (s.settings.kind e = .off → held = 0 ∧ flight = 0 ∧ flags.extractLsb' 1 2 = 0) ∧
      (s.settings.kind e ≠ .off → held = BitVec.ofInt 16 s.outbox.pending[e] ∧
        (∀ d ∈ s.outbox.flightDeltas, d.entry = e → (s.outbox.flightDeltas.map fun x => x.entry).Nodup →
          flight = BitVec.ofInt 16 d.amount.toInt) ∧
        ((∀ d ∈ s.outbox.flightDeltas, d.entry ≠ e) → flight = 0) ∧
        flags.extractLsb' 1 2 =
          if e ∈ s.outbox.flightZeros then 2 else if e ∈ s.outbox.zeroList then 1 else 0) ∧
      flags.getLsbD 0 = s.outbox.saturated[e] ∧ flags.getLsbD 3 = false ∧ flags.getLsbD 4 = s.outbox.freeze ∧
      flags.getLsbD 5 = s.outbox.flightFreeze ∧ flags.getLsbD 6 = s.outbox.leave ∧
      flags.getLsbD 7 = s.outbox.flightLeave))

/-- TAKE_NOTICE answers EMPTY on an empty queue; else it answers OK with the eight bytes of the oldest record, which
stays in the queue until the edge that ends its last reply byte; the kinds have the codes of Table 12-6. That edge
removes the record, or takes the value reported off an OVERFLOW record; in an answer that was clocked early no edge is
that one, and the command leaves the state as it is (the model's choice, entry 4). How the tap is left rests on entries
30, 31, 35 and 36. -/
def Obligations.TakeNoticeDeliversOldest : Prop :=
  ([NoticeKind.stateChanged, .limitReached, .limitCleared, .levelClamped, .pendingSaturated, .roundVetoed,
      .roundAborted, .linkStalled, .linkResumed, .stationArrived, .stationDeparted, .diverged, .collision,
      .passageStuck, .zeroDone, .snapshotTaken, .snapshotDropped, .overflow].map NoticeKind.code =
    (List.range' 1 18).map (BitVec.ofNat 8)) ∧
  (∀ s : State, s.tap.completes 0x05 [] = true →
    (s.notices = [] → exec .takeNotice s = .next (answered s s 0x05 [] (quickly .empty []))) ∧
    (∀ n rest, s.notices = n :: rest →
      exec .takeNotice s = .next (answered s s 0x05 [] { quickly .ok
        [n.kind.code,
         BitVec.ofNat 8 ((if n.cs.isSome then 1 else 0) + (if n.subject.isSome then 2 else 0) +
           (if n.value.isSome then 4 else 0)),
         (n.cs.getD 0).extractLsb' 8 8, (n.cs.getD 0).extractLsb' 0 8, n.subject.getD 0,
         (n.value.getD 0).extractLsb' 16 8, (n.value.getD 0).extractLsb' 8 8, (n.value.getD 0).extractLsb' 0 8]
        with delivers := some n }))) ∧
  (∀ (s : State) (a : Answer) (n : Notice),
    s.tap.state = .answer → s.tap.answer = some a → a.delivers = some n → s.tap.bits = 7 →
    a.bytes.length = s.tap.sent + 1 →
    (s.tap.early = true → exec .takeNoticeDelivered s = .next s) ∧
    (s.tap.early = false → ∃ left,
      exec .takeNoticeDelivered s = .next { s with
        notices := left
        tap := { s.tap.toSamplingEdge with
          state := .trailing, shiftIn := 0, shiftOut := 0x00, bits := 0, placed := 0, sent := s.tap.sent + 1
          tdo := if s.tap.fmt0 = .low then .bit .low else s.tap.toSamplingEdge.tdo } } ∧
      (∀ oldest others, s.notices = oldest :: others → oldest.isOverflow = false → left = others) ∧
      (∀ held reported : Tally, s.notices = [overflowRecord held] → n = overflowRecord reported → held ≠ reported →
        left = [overflowRecord (held - reported)]) ∧
      (∀ held : Tally, s.notices = [overflowRecord held] → n = overflowRecord held → left = [])))

/-- READ_SNAPSHOT judges its operands before the queue, then answers from the oldest record: its CS, its requester set,
the number of records held, and `count` values from entry `first` on. Nothing but the tap changes. How the tap is left
rests on entries 30, 31, 35 and 36. -/
def Obligations.ReadSnapshotReply : Prop :=
  ∀ (s : State) (first count : Byte), s.tap.completes 0x06 [first, count] = true →
    (31 < first.toNat ∨ count.toNat = 0 ∨ 32 < count.toNat ∨ 32 < first.toNat + count.toNat →
      exec (.readSnapshot first count) s = .next (answered s s 0x06 [first, count] (quickly .badOperand []))) ∧
    (1 ≤ count.toNat → first.toNat + count.toNat ≤ 32 →
      (s.snapshots = [] →
        exec (.readSnapshot first count) s = .next (answered s s 0x06 [first, count] (quickly .empty []))) ∧
      (∀ oldest others, s.snapshots = oldest :: others → ∃ values : List Byte,
        exec (.readSnapshot first count) s = .next (answered s s 0x06 [first, count] (quickly .ok
          ([oldest.cs.extractLsb' 8 8, oldest.cs.extractLsb' 0 8, oldest.requesters.extractLsb' 8 8,
            oldest.requesters.extractLsb' 0 8, BitVec.ofNat 8 s.snapshots.length] ++ values))) ∧
        values.length = 3 * count.toNat ∧
        ∀ (i : Nat) (e : Entry), i < count.toNat → e.val = first.toNat + i →
          values[3 * i]? = some (oldest.values[e].extractLsb' 16 8) ∧
          values[3 * i + 1]? = some (oldest.values[e].extractLsb' 8 8) ∧
          values[3 * i + 2]? = some (oldest.values[e].extractLsb' 0 8)))

/-- RELEASE_SNAPSHOT removes the oldest record, read or not, and answers OK; on an empty queue it answers EMPTY and
changes nothing; the snapshot-held bit clears when the last record leaves. How the tap is left rests on entries 30, 31,
35 and 36. -/
def Obligations.ReleaseSnapshotRemovesOldest : Prop :=
  ∀ s : State, s.tap.completes 0x07 [] = true →
    (s.snapshots = [] → exec .releaseSnapshot s = .next (answered s s 0x07 [] (quickly .empty []))) ∧
    (∀ oldest others, s.snapshots = oldest :: others →
      exec .releaseSnapshot s = .next (answered s { s with snapshots := others } 0x07 [] (quickly .ok [])) ∧
      (answered s { s with snapshots := others } 0x07 [] (quickly .ok [])).statusByte.getLsbD 5 =
        decide (others ≠ []))

/-! ### Requests that act -/

/-- Every request that Table 10-7 does not accept in the station state answers REFUSED and changes nothing, whatever
its operands are; a code that names no request answers UNKNOWN at the end of its byte and changes nothing. How the tap
is left rests on entries 30, 31, 35 and 36. -/
def Obligations.RefusedAndUnknownRequests : Prop :=
  (∀ s : State,
    (s.member.state ≠ .setup →
      (∀ offset length data, s.tap.completes 0x20 (bytesOfHalf offset ++ length :: data) = true →
        data.length = setupWriteData length →
        exec (.setupWrite offset length data) s =
          .next (answered s s 0x20 (bytesOfHalf offset ++ length :: data) (quickly .refused []))) ∧
      (∀ lmark lbeat, s.tap.completes 0x22 [] = true →
        exec (.setupCommit lmark lbeat) s =
          .next (answered s s 0x22 [] { quickly .refused [] with wait := 1000000 }))) ∧
    (s.member.state = .setup →
      (∀ entry amount, s.tap.completes 0x12 (entry :: bytesOfHalf amount) = true →
        exec (.adjust entry amount) s =
          .next (answered s s 0x12 (entry :: bytesOfHalf amount) (quickly .refused []))) ∧
      (∀ output level, s.tap.completes 0x13 [output, level] = true →
        exec (.setOutput output level) s = .next (answered s s 0x13 [output, level] (quickly .refused [])))) ∧
    (s.member.state ≠ .member →
      (s.tap.completes 0x10 [] = true → exec .freeze s = .next (answered s s 0x10 [] (quickly .refused []))) ∧
      (∀ entry, s.tap.completes 0x11 [entry] = true →
        exec (.zero entry) s = .next (answered s s 0x11 [entry] (quickly .refused []))) ∧
      (s.tap.completes 0x14 [] = true → exec .leave s = .next (answered s s 0x14 [] (quickly .refused [])))) ∧
    (s.member.state ≠ .parked → s.member.state ≠ .incompatible →
      ∀ lmark lbeat, s.tap.completes 0x15 [] = true →
        exec (.rejoin lmark lbeat) s = .next (answered s s 0x15 [] (quickly .refused [])))) ∧
  (∀ (s : State) (code : Byte), code ∉ knownRequestCodes → s.tap.completes code [] = true →
    exec (.unknown code) s = .next (answered s s code [] (quickly .unknown [])))

/-- FREEZE and LEAVE in MEMBER answer OK and set their flag. ZERO in MEMBER answers BAD_OPERAND, ALREADY, FULL or OK by
the conditions of R73 in their order; an accepted entry joins the tail of the list. Nothing else changes but the tap.
How the tap is left rests on entries 30, 31, 35 and 36. -/
def Obligations.MemberRequestsSetOutbox : Prop :=
  (∀ s : State, s.member.state = .member →
    (s.tap.completes 0x10 [] = true → exec .freeze s = .next (answered s
      { s with outbox := { s.outbox with freeze := true } } 0x10 [] (quickly .ok []))) ∧
    (s.tap.completes 0x14 [] = true → exec .leave s = .next (answered s
      { s with outbox := { s.outbox with leave := true } } 0x14 [] (quickly .ok [])))) ∧
  (∀ (s : State) (entry : Byte), s.member.state = .member → s.tap.completes 0x11 [entry] = true →
    (31 < entry.toNat → exec (.zero entry) s = .next (answered s s 0x11 [entry] (quickly .badOperand []))) ∧
    (∀ e : Entry, e.val = entry.toNat →
      exec (.zero entry) s = .next (
        if s.settings.kind e = .off then answered s s 0x11 [entry] (quickly .badOperand [])
        else if e ∈ s.outbox.zeroList ∨ e ∈ s.outbox.flightZeros then
          answered s s 0x11 [entry] (quickly .already [])
        else if 4 ≤ s.outbox.zeroList.length + s.outbox.flightZeros.length then
          answered s s 0x11 [entry] (quickly .full [])
        else answered s { s with outbox := { s.outbox with zeroList := s.outbox.zeroList ++ [e] } } 0x11 [entry]
          (quickly .ok []))))

/-- ADJUST takes effect at its last operand byte: REFUSED in SETUP; else BAD_OPERAND for an entry above 31, an OFF
entry or an amount outside -2047..+2047; else OK, the amount added to the pending amount held to -32767..+32767, with
one PENDING_SATURATED and the flag set when an amount is lost while the flag is clear. The notice's value is the size
of the loss (DEDUCED, entry 13). Nothing else changes but the tap. How the tap is left rests on entries 30, 31, 35 and
36. -/
def Obligations.AdjustAddsToPending : Prop :=
  (∀ (s : State) (entry : Byte) (amount : Half), s.member.state = .setup →
    s.tap.completes 0x12 (entry :: bytesOfHalf amount) = true →
    exec (.adjust entry amount) s = .next (answered s s 0x12 (entry :: bytesOfHalf amount) (quickly .refused []))) ∧
  ∀ (s : State) (entry : Byte) (amount : Half), s.member.state ≠ .setup →
    s.tap.completes 0x12 (entry :: bytesOfHalf amount) = true →
    (31 < entry.toNat → exec (.adjust entry amount) s =
      .next (answered s s 0x12 (entry :: bytesOfHalf amount) (quickly .badOperand []))) ∧
    (∀ e : Entry, e.val = entry.toNat →
      s.settings.kind e = .off ∨ amount.toInt < -2047 ∨ 2047 < amount.toInt →
      exec (.adjust entry amount) s =
        .next (answered s s 0x12 (entry :: bytesOfHalf amount) (quickly .badOperand []))) ∧
    (∀ e : Entry, e.val = entry.toNat → s.settings.kind e ≠ .off →
      -2047 ≤ amount.toInt → amount.toInt ≤ 2047 →
      let sum := s.outbox.pending[e] + amount.toInt
      let held := max (-32767) (min 32767 sum)
      exec (.adjust entry amount) s = .next (answered s
        { s with
          outbox := { s.outbox with
            pending := s.outbox.pending.set e held
            saturated := if sum = held then s.outbox.saturated else s.outbox.saturated.set e true }
          notices :=
            if sum = held ∨ s.outbox.saturated[e] = true then s.notices
            else postTo s.notices
              { kind := .pendingSaturated, cs := if s.valid then some s.replica.cs else none
                subject := some entry, value := some (BitVec.ofNat 24 (sum - held).natAbs) } }
        0x12 (entry :: bytesOfHalf amount) (quickly .ok [])))

/-- SET_OUTPUT outside SETUP: BAD_OPERAND for an output above 7, a level that is neither 00H nor 01H, or an output
whose source is not LOCAL; else OK, the latch and the pin set to the level and nothing else changed but the tap. How
the tap is left rests on entries 30, 31, 35 and 36. -/
def Obligations.SetOutputWritesLatch : Prop :=
  ∀ (s : State) (output level : Byte), s.member.state ≠ .setup → s.tap.completes 0x13 [output, level] = true →
    (7 < output.toNat ∨ (level ≠ 0x00 ∧ level ≠ 0x01) → exec (.setOutput output level) s =
      .next (answered s s 0x13 [output, level] (quickly .badOperand []))) ∧
    (∀ (o : Fin 8) (bit : Bool), o.val = output.toNat → level = (BitVec.ofBool bit).setWidth 8 →
      (s.settings.outputSource o ≠ .local → exec (.setOutput output level) s =
        .next (answered s s 0x13 [output, level] (quickly .badOperand []))) ∧
      (s.settings.outputSource o = .local → exec (.setOutput output level) s = .next (answered s
        { s with outputs := s.outputs.set o ({ s.outputs[o] with level := Level.ofBit bit, latch := some (Level.ofBit bit) }) }
        0x13 [output, level] (quickly .ok []))))

/-- REJOIN in PARKED and INCOMPATIBLE answers OK and takes the station to LISTEN: the stale replica discarded, the
streak, silence count and roster started afresh, the Link controller out of OFF, STATE_CHANGED (REJOINED) posted; the
Outbox, the counting side, the queues' other records and the setup stay. How the tap is left rests on entries 30, 31,
35 and 36. -/
def Obligations.RejoinListensAnew : Prop :=
  ∀ (s : State) (lmark lbeat : Level), s.member.state = .parked ∨ s.member.state = .incompatible →
    s.tap.completes 0x15 [] = true →
    exec (.rejoin lmark lbeat) s =
      .next (answered s (listensAnew s s.settings 0x09 lmark lbeat) 0x15 [] (quickly .ok []))

/-- SETUP_WRITE in SETUP: BAD_OPERAND for a length of 0 or above 32 or a range that leaves the record; else OK, the
data bytes at the offset and those that follow it, every other offset as before, and nothing else changed but the tap.
SETUP_READ in any state: BAD_OPERAND for a length of 0 or above 32 or a range that leaves 000H to 201H; else OK with
the bytes of the record, the failure offset at 200H and 201H; nothing but the tap changes. The settings that the other
blocks read are those of the committed record, each from its bytes by Table 12-2 and the tables it names, as Safety
spells out for every code that those tables name; while no record is committed they read as those of a record of zeros
do (DEDUCED, entry 22). How the tap is left rests on entries 30, 31, 35 and 36. -/
def Obligations.SetupStoreReadsAndWrites : Prop :=
  (∀ m : Record, settingsRead m) ∧
  (∀ s : State, (s.setup.committed = true → s.settings = s.setup.record) ∧
    (s.setup.committed = false → ∀ offset, byteAt s.settings offset = 0)) ∧
  (∀ (s : State) (offset : Half) (length : Byte) (data : List Byte), s.member.state = .setup →
    s.setup.record.wf = true → data.length = setupWriteData length →
    s.tap.completes 0x20 (bytesOfHalf offset ++ length :: data) = true →
    (length.toNat = 0 ∨ 32 < length.toNat ∨ 512 < offset.toNat + length.toNat →
      exec (.setupWrite offset length data) s =
        .next (answered s s 0x20 (bytesOfHalf offset ++ length :: data) (quickly .badOperand []))) ∧
    (1 ≤ length.toNat → length.toNat ≤ 32 → offset.toNat + length.toNat ≤ 512 → ∃ record : Record,
      exec (.setupWrite offset length data) s = .next (answered s
        { s with setup := { s.setup with record := record } }
        0x20 (bytesOfHalf offset ++ length :: data) (quickly .ok [])) ∧
      (∀ i, i < length.toNat → data[i]? = some (record.read (offset.toNat + i))) ∧
      ∀ at_, at_ < offset.toNat ∨ offset.toNat + length.toNat ≤ at_ → record.read at_ = s.setup.record.read at_)) ∧
  (∀ (s : State) (offset : Half) (length : Byte), s.tap.completes 0x21 (bytesOfHalf offset ++ [length]) = true →
    (length.toNat = 0 ∨ 32 < length.toNat ∨ 0x201 < offset.toNat ∨ 0x202 < offset.toNat + length.toNat →
      exec (.setupRead offset length) s =
        .next (answered s s 0x21 (bytesOfHalf offset ++ [length]) (quickly .badOperand []))) ∧
    (1 ≤ length.toNat → length.toNat ≤ 32 → offset.toNat + length.toNat ≤ 0x202 → ∃ bytes : List Byte,
      exec (.setupRead offset length) s =
        .next (answered s s 0x21 (bytesOfHalf offset ++ [length]) (quickly .ok bytes)) ∧
      bytes.length = length.toNat ∧
      ∀ i, i < length.toNat →
        (offset.toNat + i < 0x200 → bytes[i]? = some (s.setup.record.read (offset.toNat + i))) ∧
        (offset.toNat + i = 0x200 → bytes[i]? = some (s.setup.failure.extractLsb' 8 8)) ∧
        (offset.toNat + i = 0x201 → bytes[i]? = some (s.setup.failure.extractLsb' 0 8))))

/-- SETUP_COMMIT in SETUP. A record that fails a check answers BAD_SETUP and leaves its offset; nothing else changes
but the tap. A record that fails none answers OK and is committed: the digest computed, the failure offset FFFFH, each
output at its safe level with the latch of a LOCAL output there, the sample clock started, and LISTEN entered from OFF
with STATE_CHANGED (SETUP_COMMITTED). The digest is the CRC-8 of R48 over the bits of offset 01H and 10H to 1AFH. How
the tap is left rests on entries 30, 31, 35 and 36. -/
def Obligations.CommitChecksThenListens : Prop :=
  (∀ m : Record, m.digest =
    ((0x01 :: List.range' 0x10 416).flatMap fun offset =>
      (List.range 8).map fun i => (m.read offset).getLsbD (7 - i)).foldl
        (fun (register : Byte) bit =>
          if register.getLsbD 7 = bit then register <<< 1 else (register <<< 1) ^^^ 0x07) 0x00) ∧
  ∀ (s : State) (lmark lbeat : Level), s.member.state = .setup → s.tap.completes 0x22 [] = true →
    (∀ offset, firstFailure s.setup.record = some offset →
      exec (.setupCommit lmark lbeat) s = .next (answered s
        { s with setup := { s.setup with failure := BitVec.ofNat 16 offset } } 0x22 []
        { quickly .badSetup [] with wait := 1000000 })) ∧
    (firstFailure s.setup.record = none →
      exec (.setupCommit lmark lbeat) s = .next (answered s
        { listensAnew s s.setup.record 0x01 lmark lbeat with
          setup := { s.setup with committed := true, digest := s.setup.record.digest, failure := 0xFFFF }
          outputs := Vector.ofFn fun o : Fin 8 =>
            { level := s.setup.record.safeLevel o, pulse := none
              latch := if s.setup.record.outputSource o = .local then some (s.setup.record.safeLevel o) else none }
          inputs := { s.inputs with clock := true } } 0x22 []
        { quickly .ok [] with wait := 1000000 }))

/-- SETUP_COMMIT accepts a record exactly when the field at every offset holds what R165 to R168 ask of it, byte by byte
as Safety spells it out, and else names the first offset whose field does not. So an accepted record holds, in the terms
of the settings, what the other blocks rest on: a number below N, limits and codes in range, a used entry, ceilings,
presets and watches that agree, whole pairs, maps that name used entries, and outputs that name watched ones. -/
def Obligations.AcceptedRecordIsSound : Prop :=
  (∀ m : Record, firstFailure m = none ↔ ∀ offset, acceptsAt m offset) ∧
  (∀ (m : Record) (offset : Nat),
    firstFailure m = some offset ↔ ¬acceptsAt m offset ∧ ∀ before < offset, acceptsAt m before) ∧
  ∀ m : Record, firstFailure m = none →
    (m.stationNumber < m.clusterSize ∧ 2 ≤ m.clusterSize ∧ m.clusterSize ≤ 16) ∧
    (1 ≤ m.roundInterval ∧ 1 ≤ (m.read 0x05).toNat ∧ (m.read 0x03).toNat ≤ 3 ∧ (m.read 0x08).toNat ≤ 3) ∧
    (2 ≤ m.objectionLimit ∧ m.objectionLimit ≤ 15 ∧ 3 ≤ m.foundingSilence ∧ m.foundingSilence ≤ 63) ∧
    (∃ e : Entry, m.kind e ≠ .off) ∧
    (∀ e : Entry,
      (m.kind e = .off → m.watched e = false ∧ m.preset e = 0) ∧
      (m.kind e = .level → 1 ≤ m.ceiling e ∧ m.preset e ≤ m.ceiling e) ∧
      (m.watched e = true → m.watchLow e < m.watchHigh e ∧ (m.kind e = .level → m.watchHigh e ≤ m.ceiling e))) ∧
    (∀ p : Fin 4, (m.inputMode (pairA p) = .pairA ↔ m.inputMode (pairB p) = .pairB) ∧
      m.inputMode (pairA p) ≠ .pairB ∧ m.inputMode (pairB p) ≠ .pairA) ∧
    (∀ (i : Fin 8) (map : CountMap),
      map = m.firstMap i ∨ (m.inputMode i = .pairA ∧ map = m.secondMap i) →
      m.inputMode i = .single ∨ m.inputMode i = .pairA →
      ∀ e, map.entry = some e → m.kind e ≠ .off ∧ 1 ≤ map.amount.natAbs ∧ map.amount.natAbs ≤ 15) ∧
    (∀ o : Fin 8, m.outputSource o = .watch → m.watched (m.outputEntry o) = true ∧
      ((m.outputMode o).followsLevel = false → 1 ≤ m.pulseWidth o))

/-! ### The tally link -/

/-- In SYNC a fall of LMARK, and an expiry of the quiet time with LBEAT high, begin or join a barrier; an LBEAT edge,
and an expiry with LBEAT low, restart the quiet time of 4 x I. Nothing else changes. -/
def Obligations.SyncFindsBoundary : Prop :=
  ∀ s : State, s.link.state = .sync →
    let quiet := some (4 * (s.settings.read 0x04).toNat)
    exec .syncLmarkFall s = .next { s with link := inBarrier s s.link } ∧
    exec .syncLbeatChange s =
      .next { s with link := { s.link with lbeat := s.link.lbeat.flip, roundTimer := quiet } } ∧
    (s.link.roundTimer.isSome = true → s.link.lbeat = .high →
      exec .quietTimerExpiry s = .next { s with link := inBarrier s s.link }) ∧
    (s.link.roundTimer.isSome = true → s.link.lbeat = .low →
      exec .quietTimerExpiry s = .next { s with link := { s.link with roundTimer := quiet } })

/-- When the round timer expires the station releases LMARK and enters WAIT with the stall timer started. In JOINING and
MEMBER it composes its frame in the same event: the credentials, flags and carry of R45, R50 and R51, up to two zeros
from the head of the list, and the deltas and flags that go into flight. The replica check is the CRC-16 of R8 over the
32 values in index order, an OFF entry as 0; the frame check the same CRC-16 over the frame's body. -/
def Obligations.RoundTimerComposesAndReleases : Prop :=
  (∀ bits : List Bool, crc16 bits = bits.foldl (fun (register : Half) bit =>
    if register.getLsbD 15 = bit then register <<< 1 else (register <<< 1) ^^^ 0x1021) 0xFFFF) ∧
  (∀ (m : Record) (r : Replica) (e : Entry),
    readValue m r e = if m.kind e = .off then 0 else r.entries[e].value) ∧
  (∀ (m : Record) (r : Replica), replicaCheck m r = crc16 ((List.finRange 32).flatMap fun e : Entry =>
    (List.range 24).map fun i => (if m.kind e = .off then (0 : Tally) else r.entries[e].value).getLsbD (23 - i))) ∧
  ∀ s : State, s.link.state = .hold → s.link.roundTimer.isSome = true →
    let waiting : Link := { s.link with
      state := .wait, roundTimer := none, stallTimer := some (10 * (s.settings.read 0x05).toNat), holdLmark := false }
    (s.valid = false → exec .roundTimerExpiry s = .next { s with link := waiting }) ∧
    (s.valid = true → ∃ (f : Frame) (o : Outbox),
      exec .roundTimerExpiry s =
        .next { s with link := waiting, frame := { s.frame with sending := some f }, outbox := o } ∧
      f.station = BitVec.ofNat 4 s.settings.stationNumber ∧ f.cs = s.replica.cs ∧ f.digest = s.setup.digest ∧
      f.check = replicaCheck s.settings s.replica ∧ f.join = decide (s.member.state = .joining) ∧
      f.freeze = s.outbox.freeze ∧ f.leave = (s.outbox.leave && decide (s.member.state = .member)) ∧
      f.zeros = s.outbox.zeroList.take 2 ∧ f.carryIndex = s.member.cursor ∧
      f.carryValue = readValue s.settings s.replica s.member.cursor ∧ f.frameCheck = crc16 f.body ∧
      o.flightDeltas = f.deltas ∧ o.flightZeros = f.zeros ∧ o.flightFreeze = f.freeze ∧ o.flightLeave = f.leave ∧
      o.zeroList = s.outbox.zeroList.drop 2 ∧ o.freeze = false ∧
      o.leave = (s.outbox.leave && !f.leave) ∧ o = s.outbox.afterComposition (decide (s.member.state = .member)))

/-- The selection of a composition: from the cursor on, at most eight entries with a nonzero pending amount, each once,
each sent up to 2047 in size and reduced by what is sent; with fewer than eight taken, none is passed over; the cursor
ends behind the last entry taken; what is not taken stays. -/
def Obligations.SelectionMovesPendingIntoFlight : Prop :=
  ∀ (o : Outbox) (member : Bool),
    let after := o.afterComposition member
    let taken := after.flightDeltas.map fun d => d.entry
    taken.Nodup ∧ taken.length ≤ 8 ∧
    (taken.map fun e => (e - o.cursor).val).Pairwise (· < ·) ∧
    (∀ d ∈ after.flightDeltas, o.pending[d.entry] ≠ 0 ∧
      after.pending[d.entry] + d.amount.toInt = o.pending[d.entry] ∧ after.saturated[d.entry] = false ∧
      d.amount.toInt = max (-2047) (min 2047 o.pending[d.entry])) ∧
    (∀ e : Entry, e ∉ taken → after.pending[e] = o.pending[e] ∧ after.saturated[e] = o.saturated[e]) ∧
    (∀ e : Entry, o.pending[e] ≠ 0 → e ∉ taken →
      taken.length = 8 ∧ ∀ x ∈ taken, (x - o.cursor).val < (e - o.cursor).val) ∧
    (after.cursor = match taken.getLast? with
      | some e => e + 1
      | none => o.cursor)

/-- The stall limit's expiry in WAIT posts one LINK_STALLED, sets the stalled flag and does not restart the timer; the
rise of LMARK posts LINK_RESUMED if the flag was set, clears it, and enters SLOTS at slot 0, bit 0. -/
def Obligations.WaitStallsAndResumes : Prop :=
  ∀ s : State, s.link.state = .wait →
    let cs := if s.valid then some s.replica.cs else none
    (s.link.stallTimer.isSome = true → exec .stallTimerExpiry s = .next { s with
      link := { s.link with stalled := true, stallTimer := none }
      notices := postTo s.notices { kind := .linkStalled, cs := cs, subject := none, value := none } }) ∧
    exec .waitLmarkRise s = .next { s with
      link := { s.link with
        state := .slots, stallTimer := none, stalled := false
        stuckTimer := some (128 * s.settings.halfPeriod), half := .beforeHold, slot := 0, bit := 0
        slotLength := none, bitCount := 0, presence := [], verdicts := [], lbeat := .high }
      frame := { s.frame with readback := [], receiving := [], results := [], collided := false, object := false }
      notices := if s.link.stalled then
        postTo s.notices { kind := .linkResumed, cs := cs, subject := none, value := none } else s.notices }

/-- In SLOTS and VERDICT the end of the wait h before a hold makes the station hold LBEAT, and the end of its low phase
makes it release LBEAT. A fall of LBEAT makes the station hold LBEAT for h, restarts the BEAT stuck timer, and makes it
hold LDATA exactly for a low bit of its own frame before any collision, or for its own verdict bit when it objects. -/
def Obligations.BitClockDrivesLines : Prop :=
  (∀ s : State, s.link.state = .slots ∨ s.link.state = .verdict →
    (s.link.half = .beforeHold → exec .lbeatHalfPeriodExpiry s =
      .next { s with link := { s.link with holdLbeat := true, half := .stopped } }) ∧
    (s.link.half = .beforeRelease → exec .lbeatHalfPeriodExpiry s =
      .next { s with link := { s.link with holdLbeat := false, half := .stopped } })) ∧
  (∀ s : State, s.link.state = .slots ∨ s.link.state = .verdict → s.link.lbeat = .high → ∃ hold : Bool,
    exec .lbeatFall s = .next { s with
      link := { s.link with
        lbeat := .low, holdLbeat := true, half := .beforeRelease
        stuckTimer := some (128 * s.settings.halfPeriod), holdLdata := hold } } ∧
    (hold = true ↔
      (∃ f, s.frame.sending = some f ∧ s.link.state = .slots ∧ s.link.slot = s.settings.stationNumber ∧
        s.frame.collided = false ∧ f.levels[s.link.bit]? = some .low) ∨
      (s.frame.sending.isSome = true ∧ s.link.state = .verdict ∧
        s.link.verdicts.length = s.settings.stationNumber ∧ s.frame.object = true)))

/-- A rise of LBEAT samples one bit: a verdict bit other than the last joins the verdict bits seen; outside the own
slot of a transmitting station, a presence bit sampled high makes a silent slot of one bit, one sampled low begins a
frame, and a later bit that does not end the slot joins the frame being received, with the length known once its counts
are. In the own slot of a transmitting station a rise is OWN_FRAME_SENT: this command has the same effect there where
the rise ends no present slot, and leaves the state as it is where it ends one (the model's choice, entries 12 and 4).
-/
def Obligations.LbeatRiseSamplesOneBit : Prop :=
  ∀ (s : State) (ldata : Level),
    (risesIn .verdict s → s.link.verdicts.length + 1 < s.settings.clusterSize →
      exec (.lbeatRise ldata) s =
        .next { s with link := { risen s with verdicts := s.link.verdicts ++ [ldata] } }) ∧
    (risesIn .slots s → ¬(s.transmits = true ∧ s.link.slot = s.settings.stationNumber) →
      (s.link.bit = 0 → ldata = .high → exec (.lbeatRise ldata) s = .next { s with
        link := nextSlot s.settings { risen s with
          bit := 1, slotLength := none, presence := s.link.presence ++ [false] }
        frame := { s.frame with receiving := [.high], results := s.frame.results ++ [.silent] } }) ∧
      (s.link.bit = 0 → ldata = .low → exec (.lbeatRise ldata) s = .next { s with
        link := { risen s with bit := 1, slotLength := none, presence := s.link.presence ++ [true] }
        frame := { s.frame with receiving := [.low] } }) ∧
      (1 ≤ s.link.bit →
        let bits := s.frame.receiving ++ [ldata]
        let length := match s.link.slotLength with
          | some n => some n
          | none => slotLengthRead (bits.map Level.bit)
        length ≠ some (s.link.bit + 1) →
        exec (.lbeatRise ldata) s = .next { s with
          link := { risen s with bit := s.link.bit + 1, slotLength := length }
          frame := { s.frame with receiving := bits } })) ∧
    (risesIn .slots s → s.transmits = true → s.link.slot = s.settings.stationNumber →
      let length := if s.link.bit = 0 then none else match s.link.slotLength with
        | some n => some n
        | none => slotLengthRead ((s.frame.readback ++ [ldata]).map Level.bit)
      exec (.lbeatRise ldata) s =
        if length = some (s.link.bit + 1) then .next s else exec (.ownFrameSent ldata) s)

/-- In its own slot a transmitting station adds each sampled level to its readback. A bit that is as driven (or comes
after a collision) moves the position on; the one that ends the slot gives the result OWN with the collision mark. -/
def Obligations.OwnSlotReadsBack : Prop :=
  ∀ (s : State) (ldata : Level), risesIn .slots s → s.transmits = true → s.link.slot = s.settings.stationNumber →
    s.frame.collided = true ∨ (s.link.holdLdata = true ↔ ldata = .low) →
    (s.link.bit = 0 → ldata = .low → exec (.ownFrameSent ldata) s = .next { s with
      link := { risen s with bit := 1, slotLength := none, presence := s.link.presence ++ [true] }
      frame := { s.frame with readback := [.low] } }) ∧
    (1 ≤ s.link.bit →
      let bits := s.frame.readback ++ [ldata]
      let length := match s.link.slotLength with
        | some n => some n
        | none => slotLengthRead (bits.map Level.bit)
      (length ≠ some (s.link.bit + 1) → exec (.ownFrameSent ldata) s = .next { s with
        link := { risen s with bit := s.link.bit + 1, slotLength := length }
        frame := { s.frame with readback := bits } }) ∧
      (length = some (s.link.bit + 1) → exec (.ownFrameSent ldata) s = .next { s with
        link := nextSlot s.settings { risen s with bit := s.link.bit + 1, slotLength := length }
        frame := { s.frame with
          readback := bits, results := s.frame.results ++ [.own s.frame.collided]
          object := s.frame.object || s.frame.collided } }))

/-- The first collided bit of the own slot, at position bit + 1: LDATA released, COLLISION posted. With the strike flag
clear the flag is set and the station objects (a presence bit read back high also ends its slot as a silent one with
the result OWN, entry 26). With the flag set the station goes to FAULT: what is in flight returned, the replica stale,
the WATCH outputs safe, the Link controller in OFF, and STATE_CHANGED (DUPLICATE_NUMBER) posted after COLLISION. -/
def Obligations.CollisionStrikesOnceThenFaults : Prop :=
  ∀ (s : State) (ldata : Level), risesIn .slots s → s.transmits = true → s.link.slot = s.settings.stationNumber →
    s.frame.collided = false → ¬(s.link.holdLdata = true ↔ ldata = .low) →
    let collision : Notice :=
      { kind := .collision, cs := if s.valid then some s.replica.cs else none
        subject := some (BitVec.ofNat 8 s.settings.stationNumber), value := some (BitVec.ofNat 24 (s.link.bit + 1)) }
    let bits := s.frame.readback ++ [ldata]
    let length := match s.link.slotLength with
      | some n => some n
      | none => slotLengthRead (bits.map Level.bit)
    let struck : FrameUnit := { s.frame with collided := true, strike := true, object := true }
    (s.frame.strike = false → 1 ≤ s.link.bit → length ≠ some (s.link.bit + 1) →
      exec (.ownFrameSent ldata) s = .next { s with
        link := { risen s with bit := s.link.bit + 1, slotLength := length, holdLdata := false }
        frame := { struck with readback := bits }
        notices := postTo s.notices collision }) ∧
    (s.frame.strike = false → 1 ≤ s.link.bit → length = some (s.link.bit + 1) →
      exec (.ownFrameSent ldata) s = .next { s with
        link := nextSlot s.settings
          { risen s with bit := s.link.bit + 1, slotLength := length, holdLdata := false }
        frame := { struck with readback := bits, results := s.frame.results ++ [.own true] }
        notices := postTo s.notices collision }) ∧
    (s.frame.strike = false → s.link.bit = 0 → s.link.holdLdata = true → ldata = .high →
      exec (.ownFrameSent ldata) s = .next { s with
        link := nextSlot s.settings
          { risen s with bit := 1, slotLength := none, presence := s.link.presence ++ [false], holdLdata := false }
        frame := { struck with readback := [.high], results := s.frame.results ++ [.own true] }
        notices := postTo s.notices collision }) ∧
    (s.frame.strike = true →
      let returned := s.outbox.giveBack (if s.valid then some s.replica.cs else none)
      exec (.ownFrameSent ldata) s = .next { s with
        member := { s.member with state := .fault }
        replica := { s.replica with stale := true }
        outbox := returned.1
        outputs := outputsWithoutValidity s.settings s.outputs
        link := { Link.reset with lbeat := .high }
        frame := { FrameUnit.reset with strike := true }
        notices := postTo (postAllTo (postTo s.notices collision) returned.2)
          { kind := .stateChanged, cs := none, subject := some 0x07
            value := some (tallyOfBytes 0 s.member.state.code 0x06) } })

/-- The last bit of another station's slot gives its reception result. A transmitting station objects to an invalid
frame, to a foreign digest, and to a different CS, replica check or carried value; for the last three it posts DIVERGED
with the sender and the sum of 1, 2 and 4 for what differs. The position moves to the next slot or to VERDICT. -/
def Obligations.FrameReceivedJudgesSender : Prop :=
  ∀ (s : State) (ldata : Level), risesIn .slots s →
    ¬(s.transmits = true ∧ s.link.slot = s.settings.stationNumber) → 1 ≤ s.link.bit →
    let bits := s.frame.receiving ++ [ldata]
    let length := match s.link.slotLength with
      | some n => some n
      | none => slotLengthRead (bits.map Level.bit)
    let result := receive s.settings s.setup.digest s.link.slot (bits.map Level.bit)
    let failed (f : Frame) : Nat :=
      (if f.cs = s.replica.cs then 0 else 1) + (if f.check = replicaCheck s.settings s.replica then 0 else 2) +
      (if f.carryValue = readValue s.settings s.replica f.carryIndex then 0 else 4)
    length = some (s.link.bit + 1) →
    exec (.frameReceived ldata) s = .next { s with
      link := nextSlot s.settings { risen s with bit := s.link.bit + 1, slotLength := length }
      frame := { s.frame with
        receiving := bits, results := s.frame.results ++ [result]
        object := s.frame.object || (s.transmits && match result with
          | .invalid => true
          | .valid f foreign => foreign || decide (failed f ≠ 0)
          | .silent => false
          | .own _ => false) }
      notices := match result with
        | .valid f false =>
          if s.transmits = true ∧ failed f ≠ 0 then
            postTo s.notices
              { kind := .diverged, cs := if s.valid then some s.replica.cs else none
                subject := some (BitVec.ofNat 8 s.link.slot), value := some (BitVec.ofNat 24 (failed f)) }
          else s.notices
        | _ => s.notices }

/-- A received frame is VALID exactly when it meets the eight conditions of R57 against the receiver's own record, and
its foreign mark is the comparison of the two digests; a frame that is not VALID is INVALID. -/
def Obligations.ValidExactlyByConditions : Prop :=
  (∀ (m : Record) (digest : Byte) (slot : Nat) (bits : List Bool), receive m digest slot bits = .invalid ∨
    ∃ (f : Frame) (foreign : Bool), receive m digest slot bits = .valid f foreign) ∧
  ∀ (m : Record) (digest : Byte) (slot : Nat) (bits : List Bool) (f : Frame) (foreign : Bool),
    receive m digest slot bits = .valid f foreign ↔
      f = Frame.parse bits ∧ foreign = decide (f.digest ≠ digest) ∧
      f.frameCheck = crc16 (coveredBits bits) ∧ f.station.toNat = slot ∧
      f.zeros.length ≤ 2 ∧ f.deltas.length ≤ 8 ∧ (∀ d ∈ f.deltas, d.amount.toInt ≠ -2048) ∧
      (∀ e ∈ f.zeros, m.kind e ≠ .off) ∧ (∀ d ∈ f.deltas, m.kind d.entry ≠ .off) ∧ m.kind f.carryIndex ≠ .off ∧
      (m.kind f.carryIndex = .level → f.carryValue ≤ m.ceiling f.carryIndex) ∧
      f.zeros.Nodup ∧ (f.deltas.map fun d => d.entry).Nodup

/-- A fall of LMARK in SLOTS or VERDICT, and the BEAT stuck limit, abort the round: LMARK held, LBEAT and LDATA released,
ROUND_ABORTED posted with the bit count, the reception results discarded, what was in flight returned to the Outbox;
the replica, the streak, the silence count and the roster stay, and so does the objection decision, up to the next
entry to SLOTS (DEDUCED, entry 17). The order in which the Link controller's and the Outbox's
notices enter is an operand (the model's choice, entry 11). -/
def Obligations.AbortReturnsContributions : Prop :=
  ∀ (s : State) (order : List NoticeBlock), s.link.state = .slots ∨ s.link.state = .verdict →
    let cs := if s.valid then some s.replica.cs else none
    let returned := s.outbox.giveBack cs
    let aborted : Notice :=
      { kind := .roundAborted, cs := cs, subject := none, value := some (BitVec.ofNat 24 s.link.bitCount) }
    let t : State := { s with
      link := inBarrier s s.link
      frame := { s.frame with sending := none, readback := [], receiving := [], results := [], collided := false }
      outbox := returned.1
      notices := postAllTo s.notices (Posts.inOrder order { link := [aborted], outbox := returned.2 }) }
    exec (.lmarkFallInRound order) s = .next t ∧
    (s.link.stuckTimer.isSome = true → exec (.beatStuckExpiry order) s = .next t)

/-- A return adds each in-flight amount back to its entry, held to -32767..+32767, puts the in-flight zeros at the head
of the list and the in-flight flags back to the requested flags, and leaves nothing in flight; the cursor stays, and an
amount cut sets the entry's saturation flag, with one PENDING_SATURATED for each cut whose flag was clear, in frame
order, its value the amount lost (DEDUCED, entry 13). So a contribution is not lost through a veto or an abort: what a
composition takes and a return gives back stands as before, every pending amount, the list in its order and both flags,
unnoticed. -/
def Obligations.ReturnRestoresOutbox : Prop :=
  (∀ (o : Outbox) (cs : Option Half), (o.flightDeltas.map fun d => d.entry).Nodup →
    let back := (o.giveBack cs).1
    (∀ d ∈ o.flightDeltas, back.pending[d.entry] = max (-32767) (min 32767 (o.pending[d.entry] + d.amount.toInt)) ∧
      (back.saturated[d.entry] = true ↔
        o.saturated[d.entry] = true ∨ back.pending[d.entry] ≠ o.pending[d.entry] + d.amount.toInt)) ∧
    (∀ e : Entry, (∀ d ∈ o.flightDeltas, d.entry ≠ e) →
      back.pending[e] = o.pending[e] ∧ back.saturated[e] = o.saturated[e]) ∧
    back.zeroList = o.flightZeros ++ o.zeroList ∧ back.freeze = (o.freeze || o.flightFreeze) ∧
    back.leave = (o.leave || o.flightLeave) ∧ back.cursor = o.cursor ∧ back.flightEmpty = true ∧
    (o.giveBack cs).2 = o.flightDeltas.flatMap fun d : Delta =>
      let sum : Int := o.pending[d.entry] + d.amount.toInt
      let held : Int := max (-32767) (min 32767 sum)
      if sum = held ∨ o.saturated[d.entry] = true then ([] : List Notice)
      else [{ kind := .pendingSaturated, cs := cs, subject := some (BitVec.ofNat 8 d.entry.val)
              value := some (BitVec.ofNat 24 (sum - held).natAbs) }]) ∧
  (∀ (o : Outbox) (member : Bool) (cs : Option Half), o.flightEmpty = true →
    (∀ e : Entry, -32767 ≤ o.pending[e] ∧ o.pending[e] ≤ 32767) →
    let back := (o.afterComposition member).giveBack cs
    back.1.pending = o.pending ∧ back.1.zeroList = o.zeroList ∧ back.1.freeze = o.freeze ∧
    back.1.leave = o.leave ∧ back.1.flightEmpty = true ∧ back.2 = [])

/-! ### The close of a round -/

/-- A committed round with the own frame present, in JOINING or MEMBER and without LEAVE: the replica takes the round in
slot order with CS raised by one, the watches and the outputs are evaluated on the final values, what was in flight is
retired with one ZERO_DONE for each zero, a FREEZE takes a snapshot, the streak is 0, the roster and the carry cursor
move, a JOINING station becomes MEMBER, and the barrier begins. Notices of different blocks enter in the order of the
operand (the model's choice, entry 11). The business is that of the present slots in slot order, a frame's as received
with the own digest, the own slot's as in flight; its application takes them frame by frame, the zeros of each before its
deltas, and then raises CS by one, at every replica; the requesters are the present slots whose valid frame, of whatever
digest, or whose own frame carried FREEZE. -/
def Obligations.CommittedRoundAtMember : Prop :=
  (∀ s : State, s.roundBusiness = (List.range s.frame.results.length).flatMap fun slot =>
    if s.link.presence[slot]? = some true then
      match s.frame.results[slot]? with
      | some (SlotResult.valid f false) => [{ zeros := f.zeros, deltas := f.deltas }]
      | some (SlotResult.own _) => [{ zeros := s.outbox.flightZeros, deltas := s.outbox.flightDeltas }]
      | _ => []
    else []) ∧
  (∀ (m : Record) (r : Replica) (round : List Business),
    let applied := round.foldl (fun rc b =>
      b.deltas.foldl (Replica.applyDelta m false) (b.zeros.foldl (Replica.applyZero m false) rc.1, rc.2)) (r, [])
    r.applyRound m round = ({ applied.1 with cs := applied.1.cs + 1 }, applied.2)) ∧
  (∀ (results : List SlotResult) (own : Bool) (presence : List Bool) (slot : Nat),
    (slot ∈ freezeRequesters results own presence ↔ presence[slot]? = some true ∧
      ((∃ f foreign, results[slot]? = some (.valid f foreign) ∧ f.freeze = true) ∨
        (∃ collided, results[slot]? = some (.own collided) ∧ own = true))) ∧
    (slot < 16 → (stationSet (freezeRequesters results own presence)).getLsbD slot =
      decide (slot ∈ freezeRequesters results own presence))) ∧
  ∀ (s : State) (ldata : Level) (order : List NoticeBlock), atClose s → s.valid = true → ownFramePresent s →
    objectorsWith s ldata = [] → s.frame.object = false → 1 ≤ s.settings.objectionLimit →
    foreignBelow s.frame.results s.settings.stationNumber = false →
    (s.outbox.flightLeave = true → s.member.state = .joining) →
    let m := s.settings
    let applied := (s.replica.applyRound m s.roundBusiness).1
    let watches := evaluateWatches m applied s.watches
    let posted := postAllTo s.notices (Posts.inOrder order (commitPosts s))
    exec (.roundClose ldata order) s = .next { s with
      link := inBarrier s { risen s with verdicts := s.link.verdicts ++ [ldata] }
      frame := { s.frame with sending := none, strike := s.frame.strike && s.frame.collided }
      replica := applied
      watches := watches
      outputs := outputsAfterCommit m s.watches watches s.outputs
      snapshots := commitSnapshots s
      outbox := { s.outbox with
        flightDeltas := [], flightZeros := [], flightFreeze := false, flightLeave := false
        leave := s.outbox.leave && !s.outbox.flightLeave }
      member := { s.member with
        state := .member, streak := 0, roster := rosterAtClose m true s.link.presence, fresh := false
        cursor := m.nextUsed (s.member.cursor + 1) }
      notices := if s.member.state = .joining then postTo posted (changeNotice (some applied.cs) 0x04 0x02 0x03)
        else posted }

/-- A committed round with the own LEAVE frame present, in MEMBER: the round is applied and the Outbox retired with its
leave flag cleared, the watches are evaluated and a FREEZE takes its snapshot; then the station is PARKED, its replica
stale with the round included, its WATCH outputs safe and every pulse cancelled, its Link controller in OFF, its
objection decision at not object (the model's choice, entry 32), and STATE_CHANGED (LEFT) is the newest posting,
without a CS. The notices of the other blocks enter before it in the order of the operand (the model's choice, entry
11). -/
def Obligations.LeaveParksStation : Prop :=
  ∀ (s : State) (ldata : Level) (order : List NoticeBlock), atClose s → s.member.state = .member →
    ownFramePresent s → objectorsWith s ldata = [] → s.frame.object = false → 1 ≤ s.settings.objectionLimit →
    foreignBelow s.frame.results s.settings.stationNumber = false → s.outbox.flightLeave = true →
    let m := s.settings
    let applied := (s.replica.applyRound m s.roundBusiness).1
    let watches := evaluateWatches m applied s.watches
    exec (.roundClose ldata order) s = .next { s with
      link := { Link.reset with lbeat := .high }
      frame := { FrameUnit.reset with strike := s.frame.strike && s.frame.collided }
      replica := { applied with stale := true }
      watches := watches
      outputs := outputsWithoutValidity m (outputsAfterCommit m s.watches watches s.outputs)
      snapshots := commitSnapshots s
      outbox := { s.outbox with
        flightDeltas := [], flightZeros := [], flightFreeze := false, flightLeave := false, leave := false }
      member := { s.member with
        state := .parked, streak := 0, roster := rosterAtClose m true s.link.presence, fresh := false
        cursor := m.nextUsed (s.member.cursor + 1) }
      notices := postTo (postAllTo s.notices (Posts.inOrder order (commitPosts s)))
        (changeNotice none 0x08 0x03 0x04) }

/-- Closes that change no station state beside the committed one. A vetoed round with the own frame present, in JOINING
or MEMBER: replica, watches, outputs, snapshots and cursor stay; what was in flight returns behind one ROUND_VETOED
with the objector set; the streak rises if the station objected, else it is 0. A transmitting station whose own slot is
marked silent (its roster mark SELF, the model's choice, entry 33): what was in flight returns without ROUND_VETOED and
the streak and the cursor stay; a committed round with a frame present is applied without the own one, any other
changes no table. A vetoed round with a frame present and no foreign digest in LISTEN: the replica stays and the
silence count is 0. Every case rests on no foreign digest (from a lower number, for a transmitting station) and on a
streak below its limit. The notices of different blocks enter in the order of the operand (the model's choice, entry
11). -/
def Obligations.VetoedRoundChangesNoTable : Prop :=
  (∀ (s : State) (ldata : Level) (order : List NoticeBlock), atClose s → s.valid = true → ownFramePresent s →
    objectorsWith s ldata ≠ [] → foreignBelow s.frame.results s.settings.stationNumber = false →
    let streak := if s.frame.object then s.member.streak + 1 else 0
    streak < s.settings.objectionLimit →
    let cs := some s.replica.cs
    let returned := s.outbox.giveBack cs
    let roster := rosterAtClose s.settings true s.link.presence
    exec (.roundClose ldata order) s = .next { s with
      link := inBarrier s { risen s with verdicts := s.link.verdicts ++ [ldata] }
      frame := { s.frame with sending := none, strike := s.frame.strike && s.frame.collided }
      outbox := returned.1
      member := { s.member with streak := streak, roster := roster, fresh := false }
      notices := postAllTo s.notices (Posts.inOrder order
        { outbox := vetoNotice s ldata :: returned.2
          membership := rosterNotices s.settings cs s.member.fresh s.member.roster roster }) }) ∧
  (∀ (s : State) (ldata : Level) (order : List NoticeBlock), atClose s → s.valid = true → s.transmits = true →
    s.link.presence[s.settings.stationNumber]? ≠ some true →
    foreignBelow s.frame.results s.settings.stationNumber = false →
    s.member.streak < s.settings.objectionLimit →
    let m := s.settings
    let applied := (s.replica.applyRound m s.roundBusiness).1
    let watches := evaluateWatches m applied s.watches
    let roster := rosterAtClose m true s.link.presence
    let closed (cs : Half) : State := { s with
      link := inBarrier s { risen s with verdicts := s.link.verdicts ++ [ldata] }
      frame := { s.frame with sending := none, strike := s.frame.strike && s.frame.collided }
      outbox := (s.outbox.giveBack (some cs)).1
      member := { s.member with roster := roster, fresh := false } }
    (objectorsWith s ldata = [] → true ∈ s.link.presence →
      exec (.roundClose ldata order) s = .next { closed applied.cs with
        replica := applied, watches := watches, outputs := outputsAfterCommit m s.watches watches s.outputs
        snapshots := commitSnapshots s
        notices := postAllTo s.notices (Posts.inOrder order
          { commitPosts s with outbox := (s.outbox.giveBack (some applied.cs)).2 }) }) ∧
    (objectorsWith s ldata ≠ [] ∨ true ∉ s.link.presence →
      exec (.roundClose ldata order) s = .next { closed s.replica.cs with
        notices := postAllTo s.notices (Posts.inOrder order
          { outbox := (s.outbox.giveBack (some s.replica.cs)).2
            membership := rosterNotices m (some s.replica.cs) s.member.fresh s.member.roster roster }) })) ∧
  (∀ (s : State) (ldata : Level) (order : List NoticeBlock), atClose s → s.member.state = .listen →
    s.transmits = false → objectorsWith s ldata ≠ [] → foreignHeard s.frame.results = false →
    1 ≤ s.settings.foundingSilence →
    let roster := rosterAtClose s.settings false s.link.presence
    exec (.roundClose ldata order) s = .next { s with
      link := inBarrier s { risen s with verdicts := s.link.verdicts ++ [ldata] }
      member := { s.member with silence := 0, roster := roster, fresh := false }
      notices := postAllTo s.notices (Posts.inOrder order
        { membership := rosterNotices s.settings none s.member.fresh s.member.roster roster }) })

/-- A station whose objection brings its streak to the objection limit (at or above M, DEDUCED, entry 27) at a vetoed
close, with no foreign digest from a lower number, withdraws: LISTEN with the streak and silence count 0, the roster
afresh, the replica discarded, the watches BELOW, the WATCH outputs safe, what was in flight returned behind one
ROUND_VETOED, the Link controller in HOLD, and STATE_CHANGED (WITHDRAWN) without a CS the newest posting. The notices of
the other blocks enter before it in the order of the operand (the model's choice, entry 11). -/
def Obligations.WithdrawalAtLimit : Prop :=
  ∀ (s : State) (ldata : Level) (order : List NoticeBlock), atClose s → s.valid = true → ownFramePresent s →
    objectorsWith s ldata ≠ [] → s.frame.object = true → s.settings.objectionLimit ≤ s.member.streak + 1 →
    foreignBelow s.frame.results s.settings.stationNumber = false →
    let cs := some s.replica.cs
    let returned := s.outbox.giveBack cs
    exec (.roundClose ldata order) s = .next { s with
      link := inBarrier s { risen s with verdicts := s.link.verdicts ++ [ldata] }
      frame := { s.frame with sending := none, strike := false }
      replica := Replica.empty
      watches := Vector.replicate 32 .below
      outputs := outputsWithoutValidity s.settings s.outputs
      outbox := returned.1
      member := { s.member with
        state := .listen, streak := 0, silence := 0, roster := Vector.replicate 16 .absent, fresh := true }
      notices := postTo (postAllTo s.notices (Posts.inOrder order
        { outbox := vetoNotice s ldata :: returned.2
          membership := rosterNotices s.settings cs s.member.fresh s.member.roster
            (rosterAtClose s.settings true s.link.presence) }))
        (changeNotice none 0x05 s.member.state.code 0x01) }

/-- A foreign digest heard at a close takes the station to INCOMPATIBLE: in LISTEN from any slot, whatever the verdict;
in JOINING and MEMBER from a slot below its own number, even when the streak reaches its limit there. In LISTEN and at
a veto the replica becomes stale as it stands, nothing adopted or applied. A round that commits with such a frame, the
own slot marked silent so that the own objection did not count, is first applied, and what was in flight returns
without ROUND_VETOED (DEDUCED from R20, R11 and R70 where R94 speaks of a veto alone, entry 34). A transmitting
station's own slot is SELF in the roster (marked silent too, the model's choice, entry 33). In every case the WATCH
outputs are safe, the Link controller goes to OFF, the objection decision to not object (the model's choice, entry 32).
A transmitting station has what was in flight returned, behind one ROUND_VETOED when its frame was present.
STATE_CHANGED (FOREIGN_DIGEST) without a CS is the newest posting; the notices of the other blocks enter before it in
the order of the operand (the model's choice, entry 11). -/
def Obligations.ForeignDigestStandsAside : Prop :=
  (∀ (results : List SlotResult) (number : Nat),
    (foreignHeard results = true ↔ ∃ f, SlotResult.valid f true ∈ results) ∧
    (foreignBelow results number = true ↔ ∃ slot f, slot < number ∧ results[slot]? = some (.valid f true))) ∧
  (∀ (s : State) (ldata : Level) (order : List NoticeBlock), atClose s →
    s.member.state = .listen → s.transmits = false → foreignHeard s.frame.results = true →
    let roster := rosterAtClose s.settings false s.link.presence
    exec (.roundClose ldata order) s = .next { s with
      link := { Link.reset with lbeat := .high }
      frame := { FrameUnit.reset with strike := s.frame.strike }
      replica := { s.replica with stale := true }
      outputs := outputsWithoutValidity s.settings s.outputs
      member := { s.member with
        state := .incompatible
        silence := if true ∈ s.link.presence then 0 else min 255 (s.member.silence + 1)
        roster := roster, fresh := false }
      notices := postTo (postAllTo s.notices (Posts.inOrder order
        { membership := rosterNotices s.settings none s.member.fresh s.member.roster roster }))
        (changeNotice none 0x06 0x01 0x05) }) ∧
  (∀ (s : State) (ldata : Level) (order : List NoticeBlock), atClose s → s.valid = true →
    objectorsWith s ldata ≠ [] → foreignBelow s.frame.results s.settings.stationNumber = true →
    let cs := some s.replica.cs
    let returned := s.outbox.giveBack cs
    let roster := rosterAtClose s.settings s.transmits s.link.presence
    exec (.roundClose ldata order) s = .next { s with
      link := { Link.reset with lbeat := .high }
      frame := { FrameUnit.reset with strike := s.frame.strike && !(s.transmits && !s.frame.collided) }
      replica := { s.replica with stale := true }
      outputs := outputsWithoutValidity s.settings s.outputs
      outbox := if s.transmits = true then returned.1 else s.outbox
      member := { s.member with
        state := .incompatible
        streak := if ownFramePresent s then (if s.frame.object = true then s.member.streak + 1 else 0)
          else s.member.streak
        roster := roster, fresh := false }
      notices := postTo (postAllTo s.notices (Posts.inOrder order
        { outbox := if ownFramePresent s then vetoNotice s ldata :: returned.2
            else if s.transmits = true then returned.2 else []
          membership := rosterNotices s.settings cs s.member.fresh s.member.roster roster }))
        (changeNotice none 0x06 s.member.state.code 0x05) }) ∧
  (∀ (s : State) (ldata : Level) (order : List NoticeBlock), atClose s → s.valid = true → s.transmits = true →
    s.link.presence[s.settings.stationNumber]? ≠ some true → objectorsWith s ldata = [] → true ∈ s.link.presence →
    foreignBelow s.frame.results s.settings.stationNumber = true →
    let m := s.settings
    let applied := (s.replica.applyRound m s.roundBusiness).1
    let watches := evaluateWatches m applied s.watches
    let returned := s.outbox.giveBack (some applied.cs)
    exec (.roundClose ldata order) s = .next { s with
      link := { Link.reset with lbeat := .high }
      frame := { FrameUnit.reset with strike := s.frame.strike && s.frame.collided }
      replica := { applied with stale := true }
      watches := watches
      outputs := outputsWithoutValidity m (outputsAfterCommit m s.watches watches s.outputs)
      snapshots := commitSnapshots s
      outbox := returned.1
      member := { s.member with
        state := .incompatible, roster := rosterAtClose m true s.link.presence, fresh := false }
      notices := postTo (postAllTo s.notices (Posts.inOrder order { commitPosts s with outbox := returned.2 }))
        (changeNotice none 0x06 s.member.state.code 0x05) })

/-- A committed round with present frames and no foreign digest, in LISTEN: in doubt it empties the replica and the
station stays; else the carries, CS and business are adopted, and with every non-OFF entry and CS then known the station
becomes JOINING with its watches set silently, its outputs set from them, its cursor at its own number, and STATE_CHANGED
(CAUGHT_UP) the newest posting with the CS adopted. The silence count is 0 either way. The roster notices enter before it
(the model's choice, entry 11). The round is in doubt by the five conditions of R14, the table complete by R6, and the
cursor the first used entry from its start on by R86. -/
def Obligations.ListenerAdoptsCommittedRound : Prop :=
  (∀ (r : Replica) (results : List SlotResult),
    let heard (f : Frame) : Prop := SlotResult.valid f false ∈ results
    r.inDoubt results = true ↔
      SlotResult.invalid ∈ results ∨ (∃ f g, heard f ∧ heard g ∧ f.cs ≠ g.cs) ∨
      (r.csKnown = true ∧ ∃ f, heard f ∧ f.cs ≠ r.cs) ∨
      (∃ f g, heard f ∧ heard g ∧ f.carryIndex = g.carryIndex ∧ f.carryValue ≠ g.carryValue) ∨
      ∃ f, heard f ∧ r.entries[f.carryIndex].known = true ∧ f.carryValue ≠ r.entries[f.carryIndex].value) ∧
  (∀ results : List SlotResult, ownDigestFrames results = results.flatMap fun result => match result with
    | .valid f false => [f]
    | _ => []) ∧
  (∀ (m : Record) (r : Replica), r.complete m = true ↔
    r.csKnown = true ∧ ∀ e : Entry, m.kind e ≠ .off → r.entries[e].known = true) ∧
  (∀ (m : Record) (start used : Entry), m.kind used ≠ .off →
    m.kind (m.nextUsed start) ≠ .off ∧ (m.nextUsed start - start).val ≤ (used - start).val) ∧
  ∀ (s : State) (ldata : Level) (order : List NoticeBlock), atClose s → s.member.state = .listen →
    s.transmits = false → objectorsWith s ldata = [] → true ∈ s.link.presence →
    foreignHeard s.frame.results = false → 1 ≤ s.settings.foundingSilence →
    let m := s.settings
    let adopted := s.replica.adopt m (ownDigestFrames s.frame.results)
    let roster := rosterAtClose m false s.link.presence
    let closed : State := { s with
      link := inBarrier s { risen s with verdicts := s.link.verdicts ++ [ldata] }
      member := { s.member with silence := 0, roster := roster, fresh := false }
      notices := postAllTo s.notices (Posts.inOrder order
        { membership := rosterNotices m none s.member.fresh s.member.roster roster }) }
    (s.replica.inDoubt s.frame.results = true →
      exec (.roundClose ldata order) s = .next { closed with replica := Replica.empty }) ∧
    (s.replica.inDoubt s.frame.results = false →
      (adopted.complete m = false → exec (.roundClose ldata order) s = .next { closed with replica := adopted }) ∧
      (adopted.complete m = true →
        let watches : Vector Watch 32 := Vector.ofFn fun e : Entry =>
          if m.watched e = true then (if m.watchHigh e ≤ readValue m adopted e then .above else .below)
          else s.watches[e]
        exec (.roundClose ldata order) s = .next { closed with
          replica := adopted, watches := watches, outputs := outputsWithValidity m watches s.outputs
          member := { closed.member with
            state := .joining, cursor := m.nextUsed (Fin.ofNat 32 m.stationNumber) }
          notices := postTo closed.notices (changeNotice (some adopted.cs) 0x02 0x01 0x02) }))

/-- An all-silent round in LISTEN changes no replica and raises the silence count, which stays at 255; when the count
reaches F (at or above it, DEDUCED, entry 27) and founding is allowed, the station founds: every non-OFF entry at its
preset and known, CS 0, MEMBER with the silence count 0, the watches set silently from the presets and the outputs from
them, and STATE_CHANGED (FOUNDED) with CS 0 the newest posting. The roster notices enter before it (the model's choice,
entry 11). -/
def Obligations.SilenceFoundsTable : Prop :=
  ∀ (s : State) (ldata : Level) (order : List NoticeBlock), atClose s → s.member.state = .listen →
    s.transmits = false → true ∉ s.link.presence → foreignHeard s.frame.results = false →
    let m := s.settings
    let silence := min 255 (s.member.silence + 1)
    let roster := rosterAtClose m false s.link.presence
    let closed : State := { s with
      link := inBarrier s { risen s with verdicts := s.link.verdicts ++ [ldata] }
      member := { s.member with silence := silence, roster := roster, fresh := false }
      notices := postAllTo s.notices (Posts.inOrder order
        { membership := rosterNotices m none s.member.fresh s.member.roster roster }) }
    (silence < m.foundingSilence ∨ m.foundingAllowed = false → exec (.roundClose ldata order) s = .next closed) ∧
    (m.foundingSilence ≤ silence → m.foundingAllowed = true →
      let founded : Replica :=
        { entries := Vector.ofFn fun e : Entry =>
            if m.kind e = .off then s.replica.entries[e] else { value := m.preset e, known := true }
          cs := 0, csKnown := true, stale := false }
      let watches : Vector Watch 32 := Vector.ofFn fun e : Entry =>
        if m.watched e = true then
          (if m.watchHigh e ≤ (if m.kind e = .off then 0 else m.preset e) then .above else .below)
        else s.watches[e]
      exec (.roundClose ldata order) s = .next { closed with
        replica := founded, watches := watches, outputs := outputsWithValidity m watches s.outputs
        member := { closed.member with
          state := .member, silence := 0, cursor := m.nextUsed (Fin.ofNat 32 m.stationNumber) }
        notices := postTo closed.notices (changeNotice (some 0) 0x03 0x01 0x03) })

/-- The roster marks of R100 and the notices of R101: SELF for the own slot in which the station transmitted (where its
presence bit was read back high too, the model's choice, entry 33), PRESENT for any other present slot, ABSENT for a
silent one and from N on; one notice, in ascending slot order, for each other slot that changed between PRESENT and
ABSENT, none for the own slot, and none for a fresh roster. -/
def Obligations.RosterFollowsPresence : Prop :=
  ∀ (m : Record) (transmitted : Bool) (presence : List Bool) (before : Vector Mark 16) (cs : Option Half) (slot : Fin 16),
    let after := rosterAtClose m transmitted presence
    (after[slot] =
      if m.clusterSize ≤ slot.val then .absent
      else if slot.val = m.stationNumber ∧ transmitted = true then .self
      else if presence[slot.val]? = some true then .present else .absent) ∧
    rosterNotices m cs true before after = [] ∧
    (slot.val ≠ m.stationNumber →
      (({ kind := .stationArrived, cs := cs, subject := some (BitVec.ofNat 8 slot.val), value := none } : Notice) ∈
          rosterNotices m cs false before after ↔ before[slot] = .absent ∧ after[slot] = .present) ∧
      (({ kind := .stationDeparted, cs := cs, subject := some (BitVec.ofNat 8 slot.val), value := none } : Notice) ∈
          rosterNotices m cs false before after ↔ before[slot] = .present ∧ after[slot] = .absent)) ∧
    ∀ (fresh : Bool) (now : Vector Mark 16), rosterNotices m cs fresh before now =
      if fresh = true then [] else (List.finRange 16).flatMap fun k : Fin 16 =>
        if k.val = m.stationNumber then []
        else if before[k] = .absent ∧ now[k] = .present then
          [{ kind := .stationArrived, cs := cs, subject := some (BitVec.ofNat 8 k.val), value := none }]
        else if before[k] = .present ∧ now[k] = .absent then
          [{ kind := .stationDeparted, cs := cs, subject := some (BitVec.ofNat 8 k.val), value := none }]
        else []

/-! ### The replica -/

/-- A delta applied to a COUNT entry at a valid replica gives (v + d) modulo 16,777,216 and cuts nothing, so that no
notice is posted; a zero request gives the preset. Either leaves every other entry, every known flag, CS, whether CS is
known, and the stale flag as they were, on an entry of any kind. -/
def Obligations.CountDeltaWraps : Prop :=
  ∀ (m : Record) (r : Replica) (cuts : Cuts) (d : Delta) (e : Entry),
    let added := Replica.applyDelta m false (r, cuts) d
    let zeroed := Replica.applyZero m false r e
    (m.kind d.entry = .count →
      (((added.1.entries[d.entry].value.toNat : Nat) : Int) =
        ((r.entries[d.entry].value.toNat : Int) + d.amount.toInt) % 16777216) ∧ added.2 = cuts) ∧
    (m.kind e = .count → zeroed.entries[e].value = m.preset e) ∧
    (∀ other : Entry, other ≠ d.entry → added.1.entries[other] = r.entries[other]) ∧
    (∀ other : Entry, other ≠ e → zeroed.entries[other] = r.entries[other]) ∧
    (∀ other : Entry, added.1.entries[other].known = r.entries[other].known ∧
      zeroed.entries[other].known = r.entries[other].known) ∧
    added.1.cs = r.cs ∧ added.1.csKnown = r.csKnown ∧ added.1.stale = r.stale ∧
    zeroed.cs = r.cs ∧ zeroed.csKnown = r.csKnown ∧ zeroed.stale = r.stale

/-- A delta applied to a LEVEL entry within its ceiling gives the sum held to 0..ceiling, and the amount cut is the
distance between the sum and the result, noted for one LEVEL_CLAMPED when it is not 0. A zero request on a LEVEL entry
gives the preset; neither writes an OFF entry. -/
def Obligations.LevelDeltaClamps : Prop :=
  (∀ (m : Record) (r : Replica) (cuts : Cuts) (d : Delta), m.kind d.entry = .level →
    r.entries[d.entry].value ≤ m.ceiling d.entry →
    let sum : Int := (r.entries[d.entry].value.toNat : Int) + d.amount.toInt
    let result : Int := max 0 (min ((m.ceiling d.entry).toNat : Int) sum)
    (((Replica.applyDelta m false (r, cuts) d).1.entries[d.entry].value.toNat : Nat) : Int) = result ∧
    (Replica.applyDelta m false (r, cuts) d).2 =
      if sum = result then cuts else cuts ++ [(d.entry, (sum - result).natAbs)]) ∧
  ∀ (m : Record) (r : Replica) (cuts : Cuts) (d : Delta) (e : Entry),
    (m.kind e = .level → (Replica.applyZero m false r e).entries[e].value = m.preset e) ∧
    (m.kind e = .off → Replica.applyZero m false r e = r) ∧
    (m.kind d.entry = .off → Replica.applyDelta m false (r, cuts) d = (r, cuts))

/-- What an adoption does: CS from the first frame when it is not known, every carry in slot order, then the zeros and
deltas of each frame in slot order on the entries then known (an OFF entry is never written), then CS raised by one. So
an entry known before stays known, one neither known nor carried stays as it was, and the stale flag stays. And a
listener follows the table: with known values and CS equal to a member's before a committed round, and frames that
carry the member's CS and values, every value and the CS that the listener knows after the adoption equal the member's
after the application. -/
def Obligations.ListenerFollowsMember : Prop :=
  (∀ (m : Record) (r : Replica) (frames : List Frame),
    let cs : Half := if r.csKnown = true then r.cs else match frames with
      | f :: _ => f.cs
      | [] => r.cs
    let known : Bool := r.csKnown || !frames.isEmpty
    let carried : Replica := {
      entries := frames.foldl (fun entries f =>
        entries.set f.carryIndex ({ value := f.carryValue, known := true } : Tallied)) r.entries
      cs := cs, csKnown := known, stale := r.stale }
    let acted := (frames.foldl (fun rc f =>
      f.deltas.foldl (Replica.applyDelta m true) (f.zeros.foldl (Replica.applyZero m true) rc.1, rc.2))
      (carried, ([] : Cuts))).1
    let after := r.adopt m frames
    after = { acted with cs := if known = true then cs + 1 else cs } ∧
    after.csKnown = known ∧ after.cs = (if known = true then cs + 1 else cs) ∧ after.stale = r.stale ∧
    (∀ e : Entry, after.entries[e].known = true ↔
      r.entries[e].known = true ∨ ∃ f ∈ frames, f.carryIndex = e) ∧
    (∀ e : Entry, r.entries[e].known = false → (∀ f ∈ frames, f.carryIndex ≠ e) →
      after.entries[e] = r.entries[e])) ∧
  (∀ (m : Record) (r : Replica) (cuts : Cuts) (d : Delta) (e : Entry),
    Replica.applyDelta m true (r, cuts) d =
      (if r.entries[d.entry].known = true then Replica.applyDelta m false (r, cuts) d else (r, cuts)) ∧
    Replica.applyZero m true r e = if r.entries[e].known = true then Replica.applyZero m false r e else r) ∧
  ∀ (m : Record) (member listener : Replica) (frames : List Frame),
    (∀ e : Entry, listener.entries[e].known = true → listener.entries[e].value = member.entries[e].value) →
    (listener.csKnown = true → listener.cs = member.cs) →
    (∀ f ∈ frames, f.cs = member.cs ∧ f.carryValue = member.entries[f.carryIndex].value) →
    let after := listener.adopt m frames
    let table := (member.applyRound m (frames.map fun f => { zeros := f.zeros, deltas := f.deltas })).1
    (∀ e : Entry, after.entries[e].known = true → after.entries[e].value = table.entries[e].value) ∧
    (after.csKnown = true → after.cs = table.cs) ∧
    (∀ f ∈ frames, after.entries[f.carryIndex].known = true) ∧ (frames ≠ [] → after.csKnown = true)

/-! ### Frames on the wire -/

/-- A frame of any content with up to 3 zeros and 15 deltas stands in its slot by Table 12-1, each field most significant
bit first behind a low presence bit, and is read back exactly as it was sent: every field from its bits, the slot length
99 + 5z + 17d from its counts as soon as bit 54 + 5z is in, and the check over the bits it was computed on. -/
def Obligations.FrameReadsBackAsSent : Prop :=
  let msb : (w : Nat) → BitVec w → List Bool := fun w x => (List.range w).map fun i => x.getLsbD (w - 1 - i)
  (∀ (w : Nat) (x : BitVec w), bitsOf x = msb w x) ∧
  ∀ f : Frame, f.zeros.length ≤ 3 → f.deltas.length ≤ 15 →
    let bits := f.levels.map Level.bit
    f.body = msb 4 f.station ++ msb 16 f.cs ++ msb 8 f.digest ++ msb 16 f.check ++ [f.join, f.freeze, f.leave] ++
      msb 2 (BitVec.ofNat 2 f.zeros.length) ++ (f.zeros.flatMap fun e => msb 5 (BitVec.ofNat 5 e.val)) ++
      msb 4 (BitVec.ofNat 4 f.deltas.length) ++
      (f.deltas.flatMap fun d => msb 5 (BitVec.ofNat 5 d.entry.val) ++ msb 12 d.amount) ++
      msb 5 (BitVec.ofNat 5 f.carryIndex.val) ++ msb 24 f.carryValue ∧
    bits = false :: f.body ++ msb 16 f.frameCheck ∧
    Frame.parse bits = f ∧ coveredBits bits = f.body ∧
    bits.length = 99 + 5 * f.zeros.length + 17 * f.deltas.length ∧
    ∀ k ≤ bits.length, slotLengthRead (bits.take k) =
      if k < 54 + 5 * f.zeros.length then none else some bits.length

/-- The frame that a station composes in JOINING or MEMBER is received as VALID in its own slot by every station whose
entry kinds and ceilings are the same, and is marked foreign exactly when the digests differ. -/
def Obligations.ComposedFrameIsReceivedValid : Prop :=
  ∀ (s : State) (m : Record) (digest : Byte), Lawful s → s.valid = true →
    (∀ e : Entry, m.kind e = s.settings.kind e ∧ m.ceiling e = s.settings.ceiling e) →
    receive m digest s.settings.stationNumber (s.composedFrame.levels.map Level.bit) =
      .valid s.composedFrame (decide (s.setup.digest ≠ digest))

/-! ### Counting -/

/-- The settle filter: the first sample primes without an event; then the filtered level changes exactly at the S-th of
consecutive samples that differ from it, and any sample at the filtered level starts the run again; each such sample
below the S-th raises the run count by one, and the S-th sets it to 0. -/
def Obligations.SettleFilterAcceptsAtS : Prop :=
  ∀ (settle : Nat) (input : Input) (sample : Level), 1 ≤ settle →
    (input.primed = false → filterInput settle input sample = ({ primed := true, level := sample, run := 0 }, false)) ∧
    (input.primed = true → filterInput settle input input.level = ({ input with run := 0 }, false)) ∧
    (input.primed = true → sample ≠ input.level →
      (input.run + 1 < settle → filterInput settle input sample = ({ input with run := input.run + 1 }, false)) ∧
      (input.run + 1 = settle → filterInput settle input sample = ({ input with level := sample, run := 0 }, true))) ∧
    (input.primed = true → input.run = 0 → ∀ n, n < settle →
      let after := (List.replicate n input.level.flip).foldl (fun i l => (filterInput settle i l).1) input
      after = { input with run := n } ∧
      (filterInput settle after input.level.flip).2 = decide (n + 1 = settle) ∧
      (n + 1 = settle → (filterInput settle after input.level.flip).1 = { input with level := input.level.flip, run := 0 }))

/-- A sample instant reads every input that is in use, each by the settle filter with its own settle count, and leaves
every other alone; it adds to pending amounts, posts what those additions lose and moves detectors, and touches nothing
else. A pair whose two inputs are primed at this instant starts in IDLE when both are clear and in STUCK when one is
blocked, without a notice or an addition; a pair with no accepted change and nothing to prime stays as it is. Once
every input has been read, the accepted changes, however many, are taken one by one, as Safety spells out for one: in
the order of the operand, and the inputs it does not name after those it does, in ascending order (the model's choice,
entry 10); an addition follows R62, and the size of a loss is DEDUCED (entry 13). With the sample clock stopped nothing
happens (the model's choice, entry 4). -/
def Obligations.SampleInstantSamplesEveryInput : Prop :=
  ∀ (s : State) (levels : Byte) (order : List (Fin 8)),
    let sampled (i : Fin 8) : Level := Level.ofBit (levels.getLsbD i.val)
    (s.inputs.clock = false → exec (.sampleInstant levels order) s = .next s) ∧
    (s.inputs.clock = true → ∃ (inputs : Conditioner) (outbox : Outbox) (notices : List Notice) (detectors : Vector Detector 4),
      exec (.sampleInstant levels order) s = .next { s with
        inputs := inputs, outbox := outbox, notices := notices, detectors := detectors } ∧
      inputs.clock = true ∧
      (∀ i : Fin 8, inputs.inputs[i] =
        if s.settings.inputMode i = .unused then s.inputs.inputs[i]
        else (filterInput (s.settings.settleCount i) s.inputs.inputs[i] (sampled i)).1) ∧
      (∀ p : Fin 4, s.settings.pairInUse p = true →
        s.inputs.inputs[pairA p].primed = false → s.inputs.inputs[pairB p].primed = false →
        let blockedA := decide (sampled (pairA p) = s.settings.blockedLevel (pairA p))
        let blockedB := decide (sampled (pairB p) = s.settings.blockedLevel (pairA p))
        detectors[p] =
          { state := if blockedA || blockedB then .stuck else .idle
            markA := blockedA, markB := blockedB, timer := none }) ∧
      (∀ p : Fin 4, (s.settings.pairInUse p = false ∨ s.inputs.inputs[pairA p].primed = true) →
        (∀ i : Fin 8, i = pairA p ∨ i = pairB p → s.settings.inputMode i = .unused ∨
          s.inputs.inputs[i].primed = false ∨ s.inputs.inputs[i].level = sampled i ∨
          s.inputs.inputs[i].run + 1 < s.settings.settleCount i) →
        detectors[p] = s.detectors[p]) ∧
      outbox = { s.outbox with pending := outbox.pending, saturated := outbox.saturated } ∧
      ((∀ i : Fin 8, s.settings.inputMode i = .unused ∨ s.inputs.inputs[i].primed = false ∨
          s.inputs.inputs[i].level = sampled i) →
        outbox = s.outbox ∧ notices = s.notices)) ∧
    (s.inputs.clock = true → exec (.sampleInstant levels order) s = .next (
      ((order.dedup ++ (List.finRange 8).filter fun i => decide (i ∉ order)).filter fun i =>
        decide (acceptsChange s levels i)).foldl takesEvent (samplesRead s levels)))

/-- An accepted edge of a single input adds its map's signed amount to the pending amount of the mapped entry; a change
that the edge select does not count adds nothing; a map that names no entry adds nothing. The addition follows R62, and
the size of a loss is DEDUCED (entry 13). -/
def Obligations.SingleEdgeAddsAmount : Prop :=
  ∀ (s : State) (levels : Byte) (order : List (Fin 8)) (i : Fin 8), s.inputs.clock = true →
    s.settings.inputMode i = .single → s.inputs.inputs[i].primed = true →
    s.inputs.inputs[i].level ≠ Level.ofBit (levels.getLsbD i.val) →
    s.settings.settleCount i ≤ s.inputs.inputs[i].run + 1 →
    (∀ j : Fin 8, j ≠ i → s.settings.inputMode j = .unused ∨
      (s.inputs.inputs[j].primed = true ∧ s.inputs.inputs[j].level = Level.ofBit (levels.getLsbD j.val))) →
    (∀ p : Fin 4, s.settings.pairInUse p = true → s.inputs.inputs[pairA p].primed = true) →
    let counted : Bool := match s.settings.edgeSelect i with
      | .rising => levels.getLsbD i.val
      | .falling => !levels.getLsbD i.val
      | .both => true
    let sampled : State := { s with inputs := { s.inputs with inputs := Vector.ofFn fun j : Fin 8 =>
      if j = i then ({ primed := true, level := Level.ofBit (levels.getLsbD i.val), run := 0 } : Input)
      else (if s.settings.inputMode j = .unused then s.inputs.inputs[j] else { s.inputs.inputs[j] with run := 0 }) } }
    exec (.sampleInstant levels order) s = .next (
      if counted then addsMap sampled (s.settings.firstMap i) else sampled)

/-- A detector that is neither stuck nor marked against its state takes a change by Table 7-4, sets the mark of the
input concerned, and starts its timer afresh in the six states between IDLE and STUCK and stops it in IDLE; in STUCK it
follows the marks and enters IDLE, without a passage, once both are clear. At a sample instant with one accepted
change, on an input of a pair, the pair's detector takes it; a forward passage adds the amount of the pair's first map,
a reverse one that of its second, and nothing else changes but the sampled inputs. The addition follows R62, and the
size of a loss is DEDUCED (entry 13). -/
def Obligations.DetectorFollowsTable : Prop :=
  (∀ (limit : Option Nat) (d : Detector) (change : PairChange),
    (∀ next passage, d.state ≠ .stuck →
      (d.state, change, next, passage) ∈
        [ (PassageState.idle, PairChange.aBlocks, PassageState.a1, Passage.none), (.idle, .bBlocks, .b1, .none),
          (.a1, .aClears, .idle, .none), (.a1, .bBlocks, .abFwd, .none),
          (.abFwd, .aClears, .b2Fwd, .none), (.abFwd, .bClears, .a1, .none),
          (.b2Fwd, .aBlocks, .abFwd, .none), (.b2Fwd, .bClears, .idle, .forward),
          (.b1, .aBlocks, .abRev, .none), (.b1, .bClears, .idle, .none),
          (.abRev, .aClears, .b1, .none), (.abRev, .bClears, .a2Rev, .none),
          (.a2Rev, .aClears, .idle, .reverse), (.a2Rev, .bBlocks, .abRev, .none) ] →
      d.take limit change = (
        { state := next
          markA := if change = .aBlocks then true else if change = .aClears then false else d.markA
          markB := if change = .bBlocks then true else if change = .bClears then false else d.markB
          timer := if next = .idle then none else limit }, passage)) ∧
    (d.state = .stuck →
      let marked := d.mark change
      (d.take limit change).2 = .none ∧ (d.take limit change).1.timer = d.timer ∧
      (d.take limit change).1.markA = marked.markA ∧ (d.take limit change).1.markB = marked.markB ∧
      (d.take limit change).1.state = if marked.markA = false ∧ marked.markB = false then .idle else .stuck)) ∧
  ∀ (s : State) (levels : Byte) (order : List (Fin 8)) (p : Fin 4) (i : Fin 8), s.inputs.clock = true →
    s.settings.pairInUse p = true → i = pairA p ∨ i = pairB p → s.inputs.inputs[i].primed = true →
    s.inputs.inputs[i].level ≠ Level.ofBit (levels.getLsbD i.val) →
    s.settings.settleCount i ≤ s.inputs.inputs[i].run + 1 →
    (∀ j : Fin 8, j ≠ i → s.settings.inputMode j = .unused ∨
      (s.inputs.inputs[j].primed = true ∧ s.inputs.inputs[j].level = Level.ofBit (levels.getLsbD j.val))) →
    (∀ q : Fin 4, s.settings.pairInUse q = true → s.inputs.inputs[pairA q].primed = true) →
    let m := s.settings
    let blocked := decide (Level.ofBit (levels.getLsbD i.val) = m.blockedLevel (pairA p))
    let change : PairChange :=
      if i = pairA p then (if blocked then .aBlocks else .aClears) else (if blocked then .bBlocks else .bClears)
    let taken := s.detectors[p].take m.passageLimit change
    let moved : State := { s with
      inputs := { s.inputs with inputs := Vector.ofFn fun j : Fin 8 =>
        if j = i then ({ primed := true, level := Level.ofBit (levels.getLsbD i.val), run := 0 } : Input)
        else (if m.inputMode j = .unused then s.inputs.inputs[j] else { s.inputs.inputs[j] with run := 0 }) }
      detectors := s.detectors.set p taken.1 }
    exec (.sampleInstant levels order) s = .next (match taken.2 with
      | .none => moved
      | .forward => addsMap moved (m.firstMap (pairA p))
      | .reverse => addsMap moved (m.secondMap (pairA p)))

/-- The passage limit's expiry takes the detector to STUCK with its marks kept and posts one PASSAGE_STUCK with the pair
number; no passage is counted. A pulse's expiry drives its output at the safe level and stops its timer. Each comes only
while its timer runs (the model's choice, entry 4). Nothing else changes. -/
def Obligations.TimersEndCrossingsAndPulses : Prop :=
  ∀ s : State,
    (∀ p : Fin 4, s.detectors[p].timer.isSome = true → exec (.passageTimerExpiry p) s = .next { s with
      detectors := s.detectors.set p ({ s.detectors[p] with state := .stuck, timer := none })
      notices := postTo s.notices
        { kind := .passageStuck, cs := if s.valid then some s.replica.cs else none
          subject := some (BitVec.ofNat 8 p.val), value := none } }) ∧
    (∀ p : Fin 4, s.detectors[p].timer = none → exec (.passageTimerExpiry p) s = .next s) ∧
    (∀ o : Fin 8, s.outputs[o].pulse.isSome = true → exec (.pulseTimerExpiry o) s = .next { s with
      outputs := s.outputs.set o ({ s.outputs[o] with level := s.settings.safeLevel o, pulse := none }) }) ∧
    (∀ o : Fin 8, s.outputs[o].pulse = none → exec (.pulseTimerExpiry o) s = .next s)

/-! ### Watches, outputs and notices -/

/-- The evaluation of a commit follows the table of R125 for every watched entry and leaves the others, and posts, in
ascending entry order, one notice for each transition and no other: LIMIT_REACHED or LIMIT_CLEARED with the entry and
its final value. A transition moves exactly the WATCH outputs on its entry: a level output to the level of the new
state, a pulse output that it triggers on, with its timer started afresh at its width; every other output stays. A loss
of validity puts every WATCH output at its safe level and cancels every pulse; a gain puts each level output at the
level of its watch state and each pulse output off. -/
def Obligations.WatchesAndOutputsFollowCommit : Prop :=
  (∀ (m : Record) (r : Replica) (before : Vector Watch 32) (e : Entry),
    let after := evaluateWatches m r before
    let value := readValue m r e
    (m.watched e = false → after[e] = before[e]) ∧
    (m.watched e = true → before[e] = .below →
      (m.watchHigh e ≤ value → after[e] = .above) ∧ (value < m.watchHigh e → after[e] = .below)) ∧
    (m.watched e = true → before[e] = .above →
      (value ≤ m.watchLow e → after[e] = .below) ∧ (m.watchLow e < value → after[e] = .above))) ∧
  (∀ (m : Record) (r : Replica) (before after : Vector Watch 32) (cs : Option Half),
    limitNotices m r cs before after =
      ((List.finRange 32).filter fun e : Entry => decide (before[e] ≠ after[e])).map fun e : Entry =>
        { kind := if after[e] = .above then .limitReached else .limitCleared
          cs := cs, subject := some (BitVec.ofNat 8 e.val), value := some (readValue m r e) }) ∧
  (∀ (m : Record) (before after : Vector Watch 32) (outs : Vector Output 8) (o : Fin 8),
    let e := m.outputEntry o
    let out := (outputsAfterCommit m before after outs)[o]
    (m.outputSource o ≠ .watch ∨ before[e] = after[e] → out = outs[o]) ∧
    (m.outputSource o = .watch → before[e] ≠ after[e] →
      (m.outputMode o = .level → out = { outs[o] with
        level := if after[e] = .above then (m.safeLevel o).flip else m.safeLevel o }) ∧
      (m.outputMode o = .levelInverted → out = { outs[o] with
        level := if after[e] = .below then (m.safeLevel o).flip else m.safeLevel o }) ∧
      (m.outputMode o = .pulseBoth ∨ (m.outputMode o = .pulseOnReach ∧ after[e] = .above) ∨
          (m.outputMode o = .pulseOnClear ∧ after[e] = .below) →
        out = { outs[o] with level := (m.safeLevel o).flip, pulse := some (m.pulseWidth o) }) ∧
      ((m.outputMode o = .pulseOnReach ∧ after[e] = .below) ∨ (m.outputMode o = .pulseOnClear ∧ after[e] = .above) →
        out = outs[o]))) ∧
  (∀ (m : Record) (watches : Vector Watch 32) (outs : Vector Output 8) (o : Fin 8),
    let lost := (outputsWithoutValidity m outs)[o]
    let gained := (outputsWithValidity m watches outs)[o]
    (m.outputSource o ≠ .watch → lost = { outs[o] with pulse := none } ∧ gained = outs[o]) ∧
    (m.outputSource o = .watch → lost = { outs[o] with level := m.safeLevel o, pulse := none } ∧
      gained = { outs[o] with
        level := if (m.outputMode o = .level ∧ watches[m.outputEntry o] = .above) ∨
            (m.outputMode o = .levelInverted ∧ watches[m.outputEntry o] = .below) then (m.safeLevel o).flip
          else m.safeLevel o }))

/-- A posting follows the table of R142: added at the tail with 0 to 14 records held, an OVERFLOW record with value 1 in
its place with 15, and counted in the OVERFLOW record while one is held, up to 16,777,215. An OVERFLOW record has a
value alone; the value of a STATE_CHANGED is 00H and the codes of the two states. Several postings are taken one
after the other. What the blocks have to post at one close or abort is posted whole, each notice once, each block's in
its own order, those of the Watch unit and of the Snapshot queue after the last of the Replica; the operand names the
block that posts next, a block with nothing to post then is passed over, and what the operand leaves follows block by
block (the model's choice, entry 11). -/
def Obligations.PostingFollowsTable : Prop :=
  (∀ lost : Tally, overflowRecord lost = { kind := .overflow, cs := none, subject := none, value := some lost }) ∧
  (∀ n : Notice, n.isOverflow = decide (n.kind = .overflow)) ∧
  (∀ left entered : Byte, tallyOfBytes 0 left entered = BitVec.ofNat 24 (256 * left.toNat + entered.toNat)) ∧
  (∀ (queue : List Notice) (ns : List Notice), postAllTo queue ns = ns.foldl postTo queue) ∧
  (∀ (order : List NoticeBlock) (p : Posts),
    let posted := Posts.inOrder order p
    posted.Perm (p.link ++ p.replica ++ p.watch ++ p.snapshot ++ p.outbox ++ p.membership) ∧
    p.link.Sublist posted ∧ (p.replica ++ p.watch).Sublist posted ∧ (p.replica ++ p.snapshot).Sublist posted ∧
    p.outbox.Sublist posted ∧ p.membership.Sublist posted) ∧
  (∀ p : Posts, Posts.inOrder [] p = p.link ++ p.replica ++ p.watch ++ p.snapshot ++ p.outbox ++ p.membership) ∧
  (∀ (order : List NoticeBlock) (p : Posts) (n : Notice) (more : List Notice),
    (p.link = n :: more → Posts.inOrder (.link :: order) p = n :: Posts.inOrder order { p with link := more }) ∧
    (p.replica = n :: more →
      Posts.inOrder (.replica :: order) p = n :: Posts.inOrder order { p with replica := more }) ∧
    (p.watch = n :: more → p.replica = [] →
      Posts.inOrder (.watch :: order) p = n :: Posts.inOrder order { p with watch := more }) ∧
    (p.snapshot = n :: more → p.replica = [] →
      Posts.inOrder (.snapshot :: order) p = n :: Posts.inOrder order { p with snapshot := more }) ∧
    (p.outbox = n :: more → Posts.inOrder (.outbox :: order) p = n :: Posts.inOrder order { p with outbox := more }) ∧
    (p.membership = n :: more →
      Posts.inOrder (.membership :: order) p = n :: Posts.inOrder order { p with membership := more })) ∧
  (∀ (order : List NoticeBlock) (p : Posts) (block : NoticeBlock),
    (match block with
      | .link => p.link = []
      | .replica => p.replica = []
      | .watch => p.watch = [] ∨ p.replica ≠ []
      | .snapshot => p.snapshot = [] ∨ p.replica ≠ []
      | .outbox => p.outbox = []
      | .membership => p.membership = []) →
    Posts.inOrder (block :: order) p = Posts.inOrder order p) ∧
  ∀ (queue : List Notice) (n : Notice), (∀ r ∈ queue, r.isOverflow = false) →
    (queue.length ≤ 14 → postTo queue n = queue ++ [n]) ∧
    (queue.length = 15 → postTo queue n = queue ++ [overflowRecord 1]) ∧
    (∀ lost : Tally, postTo (queue ++ [overflowRecord lost]) n =
      queue ++ [overflowRecord (if lost = 0xFFFFFF then 0xFFFFFF else lost + 1)])

/-! ### Laws that every step keeps -/

/-- The law of R142, kept by every step: at most 16 notice records, and an OVERFLOW record is the newest. -/
def Obligations.EveryStepKeepsNoticeQueue : Prop :=
  ∀ s t : State, NoticesWf s → step s = .next t → NoticesWf t

/-- The laws of R65, R68 and R73, kept by every step: pending amounts within -32767..+32767, at most 8 deltas in flight
with distinct entries and amounts within -2047..+2047, and no entry twice across the listed and in-flight zeros, which
number at most 4. -/
def Obligations.EveryStepKeepsOutboxLimits : Prop :=
  ∀ s t : State, OutboxWf s → step s = .next t → OutboxWf t

/-- The laws of R24 and R68, kept by every step: a station in SETUP, PARKED, INCOMPATIBLE or FAULT stands in OFF and
holds no line; LMARK is held in HOLD alone, LBEAT and LDATA only in a round; nothing is in flight in OFF, SYNC and
HOLD. -/
def Obligations.EveryStepKeepsLinkDiscipline : Prop :=
  ∀ s t : State, LinkWf s → step s = .next t → LinkWf t

/-- Kept by every step: unused inputs and detectors stand at their reset values, the marks of a detector agree with its
passage state and with the filtered levels of its pair, and its timer runs in no other state than the six between. -/
def Obligations.EveryStepKeepsCounting : Prop :=
  ∀ s t : State, CountingWf s → step s = .next t → CountingWf t

/-- Every law of the device together, kept by every step: LEVEL values within 0 to the ceiling (R3), a valid replica
known throughout and the stale flag in the three stale states alone (R5, R20), a carry cursor on a non-OFF entry (R51),
a streak below its limit (R92), watches that agree with H and L (R125), outputs that agree with their sources
(R128 to R133), and an Outbox that names no OFF entry (R63). -/
def Obligations.EveryStepKeepsLaws : Prop :=
  ∀ s t : State, Lawful s → step s = .next t → Lawful t

/-- The state after reset meets every law of the device. -/
def Obligations.ResetMeetsLaws : Prop :=
  Lawful State.reset ∧ CountingWf State.reset
end

