-- ==== Sys2Proof/Laws/State.lean ====
section
/-! SUPPORT. What each shared update of State leaves in each field, by definition: later proofs cite these and unfold no
record update. -/

namespace Sys2Proof.Machine

/-! ### State.post -/

@[simp] theorem State.post_pending (s : State) (n : Notice) : (s.post n).pending = s.pending := rfl
@[simp] theorem State.post_resetting (s : State) (n : Notice) : (s.post n).resetting = s.resetting := rfl
@[simp] theorem State.post_setup (s : State) (n : Notice) : (s.post n).setup = s.setup := rfl
@[simp] theorem State.post_replica (s : State) (n : Notice) : (s.post n).replica = s.replica := rfl
@[simp] theorem State.post_outbox (s : State) (n : Notice) : (s.post n).outbox = s.outbox := rfl
@[simp] theorem State.post_link (s : State) (n : Notice) : (s.post n).link = s.link := rfl
@[simp] theorem State.post_frame (s : State) (n : Notice) : (s.post n).frame = s.frame := rfl
@[simp] theorem State.post_member (s : State) (n : Notice) : (s.post n).member = s.member := rfl
@[simp] theorem State.post_inputs (s : State) (n : Notice) : (s.post n).inputs = s.inputs := rfl
@[simp] theorem State.post_detectors (s : State) (n : Notice) : (s.post n).detectors = s.detectors := rfl
@[simp] theorem State.post_watches (s : State) (n : Notice) : (s.post n).watches = s.watches := rfl
@[simp] theorem State.post_outputs (s : State) (n : Notice) : (s.post n).outputs = s.outputs := rfl
@[simp] theorem State.post_snapshots (s : State) (n : Notice) : (s.post n).snapshots = s.snapshots := rfl
@[simp] theorem State.post_notices (s : State) (n : Notice) : (s.post n).notices = postTo s.notices n := rfl
@[simp] theorem State.post_tap (s : State) (n : Notice) : (s.post n).tap = s.tap := rfl
@[simp] theorem State.post_settings (s : State) (n : Notice) : (s.post n).settings = s.settings := rfl
@[simp] theorem State.post_valid (s : State) (n : Notice) : (s.post n).valid = s.valid := rfl
@[simp] theorem State.post_noticeCs (s : State) (n : Notice) : (s.post n).noticeCs = s.noticeCs := rfl

/-! ### State.postAll -/

@[simp] theorem State.postAll_pending (s : State) (ns : List Notice) : (s.postAll ns).pending = s.pending := rfl
@[simp] theorem State.postAll_resetting (s : State) (ns : List Notice) : (s.postAll ns).resetting = s.resetting := rfl
@[simp] theorem State.postAll_setup (s : State) (ns : List Notice) : (s.postAll ns).setup = s.setup := rfl
@[simp] theorem State.postAll_replica (s : State) (ns : List Notice) : (s.postAll ns).replica = s.replica := rfl
@[simp] theorem State.postAll_outbox (s : State) (ns : List Notice) : (s.postAll ns).outbox = s.outbox := rfl
@[simp] theorem State.postAll_link (s : State) (ns : List Notice) : (s.postAll ns).link = s.link := rfl
@[simp] theorem State.postAll_frame (s : State) (ns : List Notice) : (s.postAll ns).frame = s.frame := rfl
@[simp] theorem State.postAll_member (s : State) (ns : List Notice) : (s.postAll ns).member = s.member := rfl
@[simp] theorem State.postAll_inputs (s : State) (ns : List Notice) : (s.postAll ns).inputs = s.inputs := rfl
@[simp] theorem State.postAll_detectors (s : State) (ns : List Notice) : (s.postAll ns).detectors = s.detectors := rfl
@[simp] theorem State.postAll_watches (s : State) (ns : List Notice) : (s.postAll ns).watches = s.watches := rfl
@[simp] theorem State.postAll_outputs (s : State) (ns : List Notice) : (s.postAll ns).outputs = s.outputs := rfl
@[simp] theorem State.postAll_snapshots (s : State) (ns : List Notice) : (s.postAll ns).snapshots = s.snapshots := rfl
@[simp] theorem State.postAll_notices (s : State) (ns : List Notice) :
    (s.postAll ns).notices = postAllTo s.notices ns := rfl
@[simp] theorem State.postAll_tap (s : State) (ns : List Notice) : (s.postAll ns).tap = s.tap := rfl
@[simp] theorem State.postAll_settings (s : State) (ns : List Notice) : (s.postAll ns).settings = s.settings := rfl
@[simp] theorem State.postAll_valid (s : State) (ns : List Notice) : (s.postAll ns).valid = s.valid := rfl
@[simp] theorem State.postAll_noticeCs (s : State) (ns : List Notice) : (s.postAll ns).noticeCs = s.noticeCs := rfl

/-! ### State.postChange -/

@[simp] theorem State.postChange_pending (s : State) (cause : Cause) (left : StationState) :
    (s.postChange cause left).pending = s.pending := rfl
@[simp] theorem State.postChange_resetting (s : State) (cause : Cause) (left : StationState) :
    (s.postChange cause left).resetting = s.resetting := rfl
@[simp] theorem State.postChange_setup (s : State) (cause : Cause) (left : StationState) :
    (s.postChange cause left).setup = s.setup := rfl
@[simp] theorem State.postChange_replica (s : State) (cause : Cause) (left : StationState) :
    (s.postChange cause left).replica = s.replica := rfl
@[simp] theorem State.postChange_outbox (s : State) (cause : Cause) (left : StationState) :
    (s.postChange cause left).outbox = s.outbox := rfl
@[simp] theorem State.postChange_link (s : State) (cause : Cause) (left : StationState) :
    (s.postChange cause left).link = s.link := rfl
@[simp] theorem State.postChange_frame (s : State) (cause : Cause) (left : StationState) :
    (s.postChange cause left).frame = s.frame := rfl
@[simp] theorem State.postChange_member (s : State) (cause : Cause) (left : StationState) :
    (s.postChange cause left).member = s.member := rfl
@[simp] theorem State.postChange_inputs (s : State) (cause : Cause) (left : StationState) :
    (s.postChange cause left).inputs = s.inputs := rfl
@[simp] theorem State.postChange_detectors (s : State) (cause : Cause) (left : StationState) :
    (s.postChange cause left).detectors = s.detectors := rfl
@[simp] theorem State.postChange_watches (s : State) (cause : Cause) (left : StationState) :
    (s.postChange cause left).watches = s.watches := rfl
@[simp] theorem State.postChange_outputs (s : State) (cause : Cause) (left : StationState) :
    (s.postChange cause left).outputs = s.outputs := rfl
@[simp] theorem State.postChange_snapshots (s : State) (cause : Cause) (left : StationState) :
    (s.postChange cause left).snapshots = s.snapshots := rfl
@[simp] theorem State.postChange_notices (s : State) (cause : Cause) (left : StationState) :
    (s.postChange cause left).notices = postTo s.notices (stateChangedNotice s.noticeCs cause left s.member.state) := rfl
@[simp] theorem State.postChange_tap (s : State) (cause : Cause) (left : StationState) :
    (s.postChange cause left).tap = s.tap := rfl
@[simp] theorem State.postChange_settings (s : State) (cause : Cause) (left : StationState) :
    (s.postChange cause left).settings = s.settings := rfl
@[simp] theorem State.postChange_valid (s : State) (cause : Cause) (left : StationState) :
    (s.postChange cause left).valid = s.valid := rfl
@[simp] theorem State.postChange_noticeCs (s : State) (cause : Cause) (left : StationState) :
    (s.postChange cause left).noticeCs = s.noticeCs := rfl

/-! ### State.linkOff -/

@[simp] theorem State.linkOff_pending (s : State) : (s.linkOff).pending = s.pending := rfl
@[simp] theorem State.linkOff_resetting (s : State) : (s.linkOff).resetting = s.resetting := rfl
@[simp] theorem State.linkOff_setup (s : State) : (s.linkOff).setup = s.setup := rfl
@[simp] theorem State.linkOff_replica (s : State) : (s.linkOff).replica = s.replica := rfl
@[simp] theorem State.linkOff_outbox (s : State) : (s.linkOff).outbox = s.outbox := rfl
@[simp] theorem State.linkOff_link (s : State) : (s.linkOff).link = s.link.enterOff := rfl
@[simp] theorem State.linkOff_frame (s : State) : (s.linkOff).frame = s.frame.afterOff := rfl
@[simp] theorem State.linkOff_member (s : State) : (s.linkOff).member = s.member := rfl
@[simp] theorem State.linkOff_inputs (s : State) : (s.linkOff).inputs = s.inputs := rfl
@[simp] theorem State.linkOff_detectors (s : State) : (s.linkOff).detectors = s.detectors := rfl
@[simp] theorem State.linkOff_watches (s : State) : (s.linkOff).watches = s.watches := rfl
@[simp] theorem State.linkOff_outputs (s : State) : (s.linkOff).outputs = s.outputs := rfl
@[simp] theorem State.linkOff_snapshots (s : State) : (s.linkOff).snapshots = s.snapshots := rfl
@[simp] theorem State.linkOff_notices (s : State) : (s.linkOff).notices = s.notices := rfl
@[simp] theorem State.linkOff_tap (s : State) : (s.linkOff).tap = s.tap := rfl
@[simp] theorem State.linkOff_settings (s : State) : (s.linkOff).settings = s.settings := rfl
@[simp] theorem State.linkOff_valid (s : State) : (s.linkOff).valid = s.valid := rfl
@[simp] theorem State.linkOff_noticeCs (s : State) : (s.linkOff).noticeCs = s.noticeCs := rfl

/-! ### State.enterListen -/

@[simp] theorem State.enterListen_pending (s : State) : (s.enterListen).pending = s.pending := rfl
@[simp] theorem State.enterListen_resetting (s : State) : (s.enterListen).resetting = s.resetting := rfl
@[simp] theorem State.enterListen_setup (s : State) : (s.enterListen).setup = s.setup := rfl
@[simp] theorem State.enterListen_replica (s : State) : (s.enterListen).replica = Replica.empty := rfl
@[simp] theorem State.enterListen_outbox (s : State) : (s.enterListen).outbox = s.outbox := rfl
@[simp] theorem State.enterListen_link (s : State) : (s.enterListen).link = s.link := rfl
@[simp] theorem State.enterListen_frame (s : State) : (s.enterListen).frame = { s.frame with strike := false } := rfl
@[simp] theorem State.enterListen_member (s : State) : (s.enterListen).member = s.member.enterListen := rfl
@[simp] theorem State.enterListen_inputs (s : State) : (s.enterListen).inputs = s.inputs := rfl
@[simp] theorem State.enterListen_detectors (s : State) : (s.enterListen).detectors = s.detectors := rfl
@[simp] theorem State.enterListen_watches (s : State) : (s.enterListen).watches = Vector.replicate 32 .below := rfl
@[simp] theorem State.enterListen_outputs (s : State) :
    (s.enterListen).outputs = outputsWithoutValidity s.settings s.outputs := rfl
@[simp] theorem State.enterListen_snapshots (s : State) : (s.enterListen).snapshots = s.snapshots := rfl
@[simp] theorem State.enterListen_notices (s : State) : (s.enterListen).notices = s.notices := rfl
@[simp] theorem State.enterListen_tap (s : State) : (s.enterListen).tap = s.tap := rfl
@[simp] theorem State.enterListen_settings (s : State) : (s.enterListen).settings = s.settings := rfl

/-! ### State.enterStale -/

@[simp] theorem State.enterStale_pending (s : State) (entered : StationState) :
    (s.enterStale entered).pending = s.pending := rfl
@[simp] theorem State.enterStale_resetting (s : State) (entered : StationState) :
    (s.enterStale entered).resetting = s.resetting := rfl
@[simp] theorem State.enterStale_setup (s : State) (entered : StationState) :
    (s.enterStale entered).setup = s.setup := rfl
@[simp] theorem State.enterStale_replica (s : State) (entered : StationState) :
    (s.enterStale entered).replica = { s.replica with stale := true } := rfl
@[simp] theorem State.enterStale_outbox (s : State) (entered : StationState) :
    (s.enterStale entered).outbox = s.outbox := rfl
@[simp] theorem State.enterStale_link (s : State) (entered : StationState) :
    (s.enterStale entered).link = s.link.enterOff := rfl
@[simp] theorem State.enterStale_frame (s : State) (entered : StationState) :
    (s.enterStale entered).frame = s.frame.afterOff := rfl
@[simp] theorem State.enterStale_member (s : State) (entered : StationState) :
    (s.enterStale entered).member = { s.member with state := entered } := rfl
@[simp] theorem State.enterStale_inputs (s : State) (entered : StationState) :
    (s.enterStale entered).inputs = s.inputs := rfl
@[simp] theorem State.enterStale_detectors (s : State) (entered : StationState) :
    (s.enterStale entered).detectors = s.detectors := rfl
@[simp] theorem State.enterStale_watches (s : State) (entered : StationState) :
    (s.enterStale entered).watches = s.watches := rfl
@[simp] theorem State.enterStale_outputs (s : State) (entered : StationState) :
    (s.enterStale entered).outputs = outputsWithoutValidity s.settings s.outputs := rfl
@[simp] theorem State.enterStale_snapshots (s : State) (entered : StationState) :
    (s.enterStale entered).snapshots = s.snapshots := rfl
@[simp] theorem State.enterStale_notices (s : State) (entered : StationState) :
    (s.enterStale entered).notices = s.notices := rfl
@[simp] theorem State.enterStale_tap (s : State) (entered : StationState) : (s.enterStale entered).tap = s.tap := rfl
@[simp] theorem State.enterStale_settings (s : State) (entered : StationState) :
    (s.enterStale entered).settings = s.settings := rfl

/-! ### State.gainValidity -/

@[simp] theorem State.gainValidity_pending (s : State) :
    (s.gainValidity).pending = s.pending := by simp only [State.gainValidity]
@[simp] theorem State.gainValidity_resetting (s : State) :
    (s.gainValidity).resetting = s.resetting := by simp only [State.gainValidity]
@[simp] theorem State.gainValidity_setup (s : State) :
    (s.gainValidity).setup = s.setup := by simp only [State.gainValidity]
@[simp] theorem State.gainValidity_replica (s : State) :
    (s.gainValidity).replica = s.replica := by simp only [State.gainValidity]
@[simp] theorem State.gainValidity_outbox (s : State) :
    (s.gainValidity).outbox = s.outbox := by simp only [State.gainValidity]
@[simp] theorem State.gainValidity_link (s : State) :
    (s.gainValidity).link = s.link := by simp only [State.gainValidity]
@[simp] theorem State.gainValidity_frame (s : State) :
    (s.gainValidity).frame = s.frame := by simp only [State.gainValidity]
@[simp] theorem State.gainValidity_member (s : State) :
    (s.gainValidity).member = s.member := by simp only [State.gainValidity]
@[simp] theorem State.gainValidity_inputs (s : State) :
    (s.gainValidity).inputs = s.inputs := by simp only [State.gainValidity]
@[simp] theorem State.gainValidity_detectors (s : State) :
    (s.gainValidity).detectors = s.detectors := by simp only [State.gainValidity]
@[simp] theorem State.gainValidity_watches (s : State) :
    (s.gainValidity).watches = silentWatches s.settings s.replica s.watches := by simp only [State.gainValidity]
@[simp] theorem State.gainValidity_outputs (s : State) :
    (s.gainValidity).outputs = outputsWithValidity s.settings (silentWatches s.settings s.replica s.watches) s.outputs := by
  simp only [State.gainValidity]
@[simp] theorem State.gainValidity_snapshots (s : State) :
    (s.gainValidity).snapshots = s.snapshots := by simp only [State.gainValidity]
@[simp] theorem State.gainValidity_notices (s : State) :
    (s.gainValidity).notices = s.notices := by simp only [State.gainValidity]
@[simp] theorem State.gainValidity_tap (s : State) : (s.gainValidity).tap = s.tap := by simp only [State.gainValidity]
@[simp] theorem State.gainValidity_settings (s : State) :
    (s.gainValidity).settings = s.settings := by simp only [State.settings, State.gainValidity_setup]
@[simp] theorem State.gainValidity_valid (s : State) :
    (s.gainValidity).valid = s.valid := by simp only [State.valid, State.gainValidity_member]
@[simp] theorem State.gainValidity_noticeCs (s : State) :
    (s.gainValidity).noticeCs = s.noticeCs := by
  rw [State.noticeCs, State.noticeCs, State.gainValidity_valid, State.gainValidity_replica]

/-! ### State.enterJoining -/

@[simp] theorem State.enterJoining_pending (s : State) :
    (s.enterJoining).pending = s.pending := by simp only [State.enterJoining, State.gainValidity, State.settings]
@[simp] theorem State.enterJoining_resetting (s : State) :
    (s.enterJoining).resetting = s.resetting := by simp only [State.enterJoining, State.gainValidity, State.settings]
@[simp] theorem State.enterJoining_setup (s : State) :
    (s.enterJoining).setup = s.setup := by simp only [State.enterJoining, State.gainValidity, State.settings]
@[simp] theorem State.enterJoining_replica (s : State) :
    (s.enterJoining).replica = s.replica := by simp only [State.enterJoining, State.gainValidity, State.settings]
@[simp] theorem State.enterJoining_outbox (s : State) :
    (s.enterJoining).outbox = s.outbox := by simp only [State.enterJoining, State.gainValidity, State.settings]
@[simp] theorem State.enterJoining_link (s : State) :
    (s.enterJoining).link = s.link := by simp only [State.enterJoining, State.gainValidity, State.settings]
@[simp] theorem State.enterJoining_frame (s : State) :
    (s.enterJoining).frame = s.frame := by simp only [State.enterJoining, State.gainValidity, State.settings]
@[simp] theorem State.enterJoining_member (s : State) :
    (s.enterJoining).member = { s.member with state := .joining, cursor := s.settings.firstCarry } := by
  simp only [State.enterJoining, State.gainValidity, State.settings]
@[simp] theorem State.enterJoining_inputs (s : State) :
    (s.enterJoining).inputs = s.inputs := by simp only [State.enterJoining, State.gainValidity, State.settings]
@[simp] theorem State.enterJoining_detectors (s : State) :
    (s.enterJoining).detectors = s.detectors := by simp only [State.enterJoining, State.gainValidity, State.settings]
@[simp] theorem State.enterJoining_watches (s : State) :
    (s.enterJoining).watches = silentWatches s.settings s.replica s.watches := by
  simp only [State.enterJoining, State.gainValidity, State.settings]
@[simp] theorem State.enterJoining_outputs (s : State) :
    (s.enterJoining).outputs = outputsWithValidity s.settings (silentWatches s.settings s.replica s.watches) s.outputs := by
  simp only [State.enterJoining, State.gainValidity, State.settings]
@[simp] theorem State.enterJoining_snapshots (s : State) :
    (s.enterJoining).snapshots = s.snapshots := by simp only [State.enterJoining, State.gainValidity, State.settings]
@[simp] theorem State.enterJoining_notices (s : State) :
    (s.enterJoining).notices = s.notices := by simp only [State.enterJoining, State.gainValidity, State.settings]
@[simp] theorem State.enterJoining_tap (s : State) :
    (s.enterJoining).tap = s.tap := by simp only [State.enterJoining, State.gainValidity, State.settings]
@[simp] theorem State.enterJoining_settings (s : State) :
    (s.enterJoining).settings = s.settings := by simp only [State.settings, State.enterJoining_setup]

/-! ### State.foundTable -/

@[simp] theorem State.foundTable_pending (s : State) :
    (s.foundTable).pending = s.pending := by simp only [State.foundTable, State.gainValidity, State.settings]
@[simp] theorem State.foundTable_resetting (s : State) :
    (s.foundTable).resetting = s.resetting := by simp only [State.foundTable, State.gainValidity, State.settings]
@[simp] theorem State.foundTable_setup (s : State) :
    (s.foundTable).setup = s.setup := by simp only [State.foundTable, State.gainValidity, State.settings]
@[simp] theorem State.foundTable_replica (s : State) :
    (s.foundTable).replica = s.replica.found s.settings := by
  simp only [State.foundTable, State.gainValidity, State.settings]
@[simp] theorem State.foundTable_outbox (s : State) :
    (s.foundTable).outbox = s.outbox := by simp only [State.foundTable, State.gainValidity, State.settings]
@[simp] theorem State.foundTable_link (s : State) :
    (s.foundTable).link = s.link := by simp only [State.foundTable, State.gainValidity, State.settings]
@[simp] theorem State.foundTable_frame (s : State) :
    (s.foundTable).frame = s.frame := by simp only [State.foundTable, State.gainValidity, State.settings]
@[simp] theorem State.foundTable_member (s : State) :
    (s.foundTable).member = { s.member with state := .member, silence := 0, cursor := s.settings.firstCarry } := by
  simp only [State.foundTable, State.gainValidity, State.settings]
@[simp] theorem State.foundTable_inputs (s : State) :
    (s.foundTable).inputs = s.inputs := by simp only [State.foundTable, State.gainValidity, State.settings]
@[simp] theorem State.foundTable_detectors (s : State) :
    (s.foundTable).detectors = s.detectors := by simp only [State.foundTable, State.gainValidity, State.settings]
@[simp] theorem State.foundTable_watches (s : State) :
    (s.foundTable).watches = silentWatches s.settings (s.replica.found s.settings) s.watches := by
  simp only [State.foundTable, State.gainValidity, State.settings]
@[simp] theorem State.foundTable_outputs (s : State) :
    (s.foundTable).outputs = outputsWithValidity s.settings (silentWatches s.settings (s.replica.found s.settings) s.watches) s.outputs := by
  simp only [State.foundTable, State.gainValidity, State.settings]
@[simp] theorem State.foundTable_snapshots (s : State) :
    (s.foundTable).snapshots = s.snapshots := by simp only [State.foundTable, State.gainValidity, State.settings]
@[simp] theorem State.foundTable_notices (s : State) :
    (s.foundTable).notices = s.notices := by simp only [State.foundTable, State.gainValidity, State.settings]
@[simp] theorem State.foundTable_tap (s : State) :
    (s.foundTable).tap = s.tap := by simp only [State.foundTable, State.gainValidity, State.settings]
@[simp] theorem State.foundTable_settings (s : State) :
    (s.foundTable).settings = s.settings := by simp only [State.settings, State.foundTable_setup]

/-! ### State.addPending -/

@[simp] theorem State.addPending_pending (s : State) (e : Entry) (amount : Int) :
    (s.addPending e amount).pending = s.pending := rfl
@[simp] theorem State.addPending_resetting (s : State) (e : Entry) (amount : Int) :
    (s.addPending e amount).resetting = s.resetting := rfl
@[simp] theorem State.addPending_setup (s : State) (e : Entry) (amount : Int) :
    (s.addPending e amount).setup = s.setup := rfl
@[simp] theorem State.addPending_replica (s : State) (e : Entry) (amount : Int) :
    (s.addPending e amount).replica = s.replica := rfl
@[simp] theorem State.addPending_outbox (s : State) (e : Entry) (amount : Int) :
    (s.addPending e amount).outbox = (Outbox.addNoting s.noticeCs (s.outbox, []) e amount).1 := rfl
@[simp] theorem State.addPending_link (s : State) (e : Entry) (amount : Int) :
    (s.addPending e amount).link = s.link := rfl
@[simp] theorem State.addPending_frame (s : State) (e : Entry) (amount : Int) :
    (s.addPending e amount).frame = s.frame := rfl
@[simp] theorem State.addPending_member (s : State) (e : Entry) (amount : Int) :
    (s.addPending e amount).member = s.member := rfl
@[simp] theorem State.addPending_inputs (s : State) (e : Entry) (amount : Int) :
    (s.addPending e amount).inputs = s.inputs := rfl
@[simp] theorem State.addPending_detectors (s : State) (e : Entry) (amount : Int) :
    (s.addPending e amount).detectors = s.detectors := rfl
@[simp] theorem State.addPending_watches (s : State) (e : Entry) (amount : Int) :
    (s.addPending e amount).watches = s.watches := rfl
@[simp] theorem State.addPending_outputs (s : State) (e : Entry) (amount : Int) :
    (s.addPending e amount).outputs = s.outputs := rfl
@[simp] theorem State.addPending_snapshots (s : State) (e : Entry) (amount : Int) :
    (s.addPending e amount).snapshots = s.snapshots := rfl
@[simp] theorem State.addPending_notices (s : State) (e : Entry) (amount : Int) :
    (s.addPending e amount).notices = postAllTo s.notices (Outbox.addNoting s.noticeCs (s.outbox, []) e amount).2 := rfl
@[simp] theorem State.addPending_tap (s : State) (e : Entry) (amount : Int) :
    (s.addPending e amount).tap = s.tap := rfl
@[simp] theorem State.addPending_settings (s : State) (e : Entry) (amount : Int) :
    (s.addPending e amount).settings = s.settings := rfl
@[simp] theorem State.addPending_valid (s : State) (e : Entry) (amount : Int) :
    (s.addPending e amount).valid = s.valid := rfl
@[simp] theorem State.addPending_noticeCs (s : State) (e : Entry) (amount : Int) :
    (s.addPending e amount).noticeCs = s.noticeCs := rfl

/-! ### State.abortRound -/

@[simp] theorem State.abortRound_pending (s : State) (order : List NoticeBlock) :
    (s.abortRound order).pending = s.pending := rfl
@[simp] theorem State.abortRound_resetting (s : State) (order : List NoticeBlock) :
    (s.abortRound order).resetting = s.resetting := rfl
@[simp] theorem State.abortRound_setup (s : State) (order : List NoticeBlock) :
    (s.abortRound order).setup = s.setup := rfl
@[simp] theorem State.abortRound_replica (s : State) (order : List NoticeBlock) :
    (s.abortRound order).replica = s.replica := rfl
@[simp] theorem State.abortRound_outbox (s : State) (order : List NoticeBlock) :
    (s.abortRound order).outbox = (s.outbox.giveBack s.noticeCs).1 := rfl
@[simp] theorem State.abortRound_link (s : State) (order : List NoticeBlock) :
    (s.abortRound order).link = s.link.enterHold s.settings.roundInterval := rfl
@[simp] theorem State.abortRound_frame (s : State) (order : List NoticeBlock) :
    (s.abortRound order).frame = s.frame.afterAbort := rfl
@[simp] theorem State.abortRound_member (s : State) (order : List NoticeBlock) :
    (s.abortRound order).member = s.member := rfl
@[simp] theorem State.abortRound_inputs (s : State) (order : List NoticeBlock) :
    (s.abortRound order).inputs = s.inputs := rfl
@[simp] theorem State.abortRound_detectors (s : State) (order : List NoticeBlock) :
    (s.abortRound order).detectors = s.detectors := rfl
@[simp] theorem State.abortRound_watches (s : State) (order : List NoticeBlock) :
    (s.abortRound order).watches = s.watches := rfl
@[simp] theorem State.abortRound_outputs (s : State) (order : List NoticeBlock) :
    (s.abortRound order).outputs = s.outputs := rfl
@[simp] theorem State.abortRound_snapshots (s : State) (order : List NoticeBlock) :
    (s.abortRound order).snapshots = s.snapshots := rfl
@[simp] theorem State.abortRound_notices (s : State) (order : List NoticeBlock) :
    (s.abortRound order).notices = postAllTo s.notices (Posts.inOrder order { link := [s.abortedNotice], outbox := (s.outbox.giveBack s.noticeCs).2 }) := rfl
@[simp] theorem State.abortRound_tap (s : State) (order : List NoticeBlock) : (s.abortRound order).tap = s.tap := rfl
@[simp] theorem State.abortRound_settings (s : State) (order : List NoticeBlock) :
    (s.abortRound order).settings = s.settings := rfl
@[simp] theorem State.abortRound_valid (s : State) (order : List NoticeBlock) :
    (s.abortRound order).valid = s.valid := rfl
@[simp] theorem State.abortRound_noticeCs (s : State) (order : List NoticeBlock) :
    (s.abortRound order).noticeCs = s.noticeCs := rfl

/-! ### State.recordBit -/

@[simp] theorem State.recordBit_pending (s : State) (ldata : Level) : (s.recordBit ldata).pending = s.pending := rfl
@[simp] theorem State.recordBit_resetting (s : State) (ldata : Level) :
    (s.recordBit ldata).resetting = s.resetting := rfl
@[simp] theorem State.recordBit_setup (s : State) (ldata : Level) : (s.recordBit ldata).setup = s.setup := rfl
@[simp] theorem State.recordBit_replica (s : State) (ldata : Level) : (s.recordBit ldata).replica = s.replica := rfl
@[simp] theorem State.recordBit_outbox (s : State) (ldata : Level) : (s.recordBit ldata).outbox = s.outbox := rfl
@[simp] theorem State.recordBit_member (s : State) (ldata : Level) : (s.recordBit ldata).member = s.member := rfl
@[simp] theorem State.recordBit_inputs (s : State) (ldata : Level) : (s.recordBit ldata).inputs = s.inputs := rfl
@[simp] theorem State.recordBit_detectors (s : State) (ldata : Level) :
    (s.recordBit ldata).detectors = s.detectors := rfl
@[simp] theorem State.recordBit_watches (s : State) (ldata : Level) : (s.recordBit ldata).watches = s.watches := rfl
@[simp] theorem State.recordBit_outputs (s : State) (ldata : Level) : (s.recordBit ldata).outputs = s.outputs := rfl
@[simp] theorem State.recordBit_snapshots (s : State) (ldata : Level) :
    (s.recordBit ldata).snapshots = s.snapshots := rfl
@[simp] theorem State.recordBit_notices (s : State) (ldata : Level) : (s.recordBit ldata).notices = s.notices := rfl
@[simp] theorem State.recordBit_tap (s : State) (ldata : Level) : (s.recordBit ldata).tap = s.tap := rfl
@[simp] theorem State.recordBit_settings (s : State) (ldata : Level) :
    (s.recordBit ldata).settings = s.settings := rfl
@[simp] theorem State.recordBit_valid (s : State) (ldata : Level) : (s.recordBit ldata).valid = s.valid := rfl
@[simp] theorem State.recordBit_noticeCs (s : State) (ldata : Level) :
    (s.recordBit ldata).noticeCs = s.noticeCs := rfl

/-! ### State.endSlot -/

@[simp] theorem State.endSlot_pending (s : State) (result : SlotResult) :
    (s.endSlot result).pending = s.pending := rfl
@[simp] theorem State.endSlot_resetting (s : State) (result : SlotResult) :
    (s.endSlot result).resetting = s.resetting := rfl
@[simp] theorem State.endSlot_setup (s : State) (result : SlotResult) : (s.endSlot result).setup = s.setup := rfl
@[simp] theorem State.endSlot_replica (s : State) (result : SlotResult) :
    (s.endSlot result).replica = s.replica := rfl
@[simp] theorem State.endSlot_outbox (s : State) (result : SlotResult) : (s.endSlot result).outbox = s.outbox := rfl
@[simp] theorem State.endSlot_link (s : State) (result : SlotResult) :
    (s.endSlot result).link = s.link.afterSlot s.settings := rfl
@[simp] theorem State.endSlot_member (s : State) (result : SlotResult) : (s.endSlot result).member = s.member := rfl
@[simp] theorem State.endSlot_inputs (s : State) (result : SlotResult) : (s.endSlot result).inputs = s.inputs := rfl
@[simp] theorem State.endSlot_detectors (s : State) (result : SlotResult) :
    (s.endSlot result).detectors = s.detectors := rfl
@[simp] theorem State.endSlot_watches (s : State) (result : SlotResult) :
    (s.endSlot result).watches = s.watches := rfl
@[simp] theorem State.endSlot_outputs (s : State) (result : SlotResult) :
    (s.endSlot result).outputs = s.outputs := rfl
@[simp] theorem State.endSlot_snapshots (s : State) (result : SlotResult) :
    (s.endSlot result).snapshots = s.snapshots := rfl
@[simp] theorem State.endSlot_notices (s : State) (result : SlotResult) :
    (s.endSlot result).notices = postAllTo s.notices (s.divergence result) := rfl
@[simp] theorem State.endSlot_tap (s : State) (result : SlotResult) : (s.endSlot result).tap = s.tap := rfl
@[simp] theorem State.endSlot_settings (s : State) (result : SlotResult) :
    (s.endSlot result).settings = s.settings := rfl
@[simp] theorem State.endSlot_valid (s : State) (result : SlotResult) : (s.endSlot result).valid = s.valid := rfl
@[simp] theorem State.endSlot_noticeCs (s : State) (result : SlotResult) :
    (s.endSlot result).noticeCs = s.noticeCs := rfl

/-! ### What one station state or link state answers -/

@[simp] theorem State.enterListen_valid (s : State) : s.enterListen.valid = false := rfl
@[simp] theorem State.enterJoining_valid (s : State) : s.enterJoining.valid = true := rfl
@[simp] theorem State.foundTable_valid (s : State) : s.foundTable.valid = true := rfl
@[simp] theorem State.enterListen_noticeCs (s : State) : s.enterListen.noticeCs = none := rfl
@[simp] theorem State.enterJoining_noticeCs (s : State) : s.enterJoining.noticeCs = some s.replica.cs := rfl
@[simp] theorem State.foundTable_noticeCs (s : State) : s.foundTable.noticeCs = some 0 := rfl
@[simp] theorem State.reset_settings : State.reset.settings = [] := rfl
@[simp] theorem State.reset_valid : State.reset.valid = false := rfl

end Sys2Proof.Machine
end

