-- ==== Sys2Proof/Laws/Outbox.lean ====
section
/-! SUPPORT. What the additions, the composition, the retirement and the return of the Outbox can do (R62 to R70). -/

namespace Sys2Proof.Machine

/-- A sum held to the pending limit lies within it (R62). -/
theorem saturate_bounds (sum : Int) : -32767 ≤ saturate sum ∧ saturate sum ≤ 32767 := by
  simp only [saturate, Config.pendingLimit]; omega

/-- An addition loses nothing exactly when the sum lies within the limit (R62). -/
theorem amountLost_eq_zero (sum : Int) : amountLost sum = 0 ↔ saturate sum = sum := by
  simp only [amountLost]; omega

theorem saturate_of_bounds {sum : Int} (low : -32767 ≤ sum) (high : sum ≤ 32767) : saturate sum = sum := by
  simp only [saturate, Config.pendingLimit]; omega

/-- Everything that one addition can do (R62). -/
theorem Outbox.add_cases (o : Outbox) (e : Entry) (amount : Int) :
    (saturate (o.pending[e] + amount) = o.pending[e] + amount ∧
      o.add e amount = ({ o with pending := o.pending.set e (o.pending[e] + amount) }, none)) ∨
    (saturate (o.pending[e] + amount) ≠ o.pending[e] + amount ∧ o.saturated[e] = true ∧
      o.add e amount = ({ o with
        pending := o.pending.set e (saturate (o.pending[e] + amount)), saturated := o.saturated.set e true }, none)) ∨
    (saturate (o.pending[e] + amount) ≠ o.pending[e] + amount ∧ o.saturated[e] = false ∧
      o.add e amount = ({ o with
        pending := o.pending.set e (saturate (o.pending[e] + amount)), saturated := o.saturated.set e true },
        some (amountLost (o.pending[e] + amount)))) := by
  by_cases lossless : amountLost (o.pending[e] + amount) = 0
  · have eq := (amountLost_eq_zero _).mp lossless
    exact .inl ⟨eq, by simp only [Outbox.add, if_pos lossless, eq]⟩
  · have ne := fun h => lossless ((amountLost_eq_zero _).mpr h)
    cases flag : o.saturated[e]
    · exact .inr (.inr ⟨ne, rfl, by simp only [Outbox.add, if_neg lossless, flag, Bool.false_eq_true, if_false]⟩)
    · exact .inr (.inl ⟨ne, rfl, by simp only [Outbox.add, if_neg lossless, flag, if_true]⟩)

/-- An addition touches the pending table and the saturation flags alone. -/
theorem Outbox.add_frame (o : Outbox) (e : Entry) (amount : Int) :
    (o.add e amount).1 =
      { o with pending := (o.add e amount).1.pending, saturated := (o.add e amount).1.saturated } := by
  rcases o.add_cases e amount with ⟨-, eq⟩ | ⟨-, -, eq⟩ | ⟨-, -, eq⟩ <;> rw [eq]

@[simp] theorem Outbox.add_pending (o : Outbox) (e : Entry) (amount : Int) :
    (o.add e amount).1.pending = o.pending.set e (saturate (o.pending[e] + amount)) := by
  rcases o.add_cases e amount with ⟨eq, h⟩ | ⟨-, -, h⟩ | ⟨-, -, h⟩ <;> rw [h]
  simp only [eq]

@[simp] theorem Outbox.addNoting_fst (cs : Option Half) (on : Outbox × List Notice) (e : Entry) (amount : Int) :
    (Outbox.addNoting cs on e amount).1 = (on.1.add e amount).1 := rfl

/-- The additions of a return, one after the other. -/
def Outbox.addAll (cs : Option Half) (o : Outbox) (deltas : List Delta) : Outbox × List Notice :=
  deltas.foldl (fun on d => Outbox.addNoting cs on d.entry d.amount.toInt) (o, [])

/-- Whatever one addition keeps, the additions of a return keep. -/
theorem Outbox.addAll_induction {P : Outbox → Prop} (cs : Option Half)
    (step : ∀ o e amount, P o → P (Outbox.add o e amount).1) (o : Outbox) (deltas : List Delta) (start : P o) :
    P (o.addAll cs deltas).1 := by
  suffices ∀ on : Outbox × List Notice, P on.1 →
      P (deltas.foldl (fun on d => Outbox.addNoting cs on d.entry d.amount.toInt) on).1 from this (o, []) start
  induction deltas with
  | nil => exact fun _ h => h
  | cons d rest ih => exact fun on h => ih _ (step on.1 d.entry d.amount.toInt h)

/-- The additions of a return touch the pending table and the saturation flags alone. -/
theorem Outbox.addAll_frame (cs : Option Half) (o : Outbox) (deltas : List Delta) :
    (o.addAll cs deltas).1 =
      { o with pending := (o.addAll cs deltas).1.pending, saturated := (o.addAll cs deltas).1.saturated } := by
  have same : { (o.addAll cs deltas).1 with pending := o.pending, saturated := o.saturated } = o := by
    refine Outbox.addAll_induction (P := fun x => { x with pending := o.pending, saturated := o.saturated } = o) cs
      (fun x e amount h => ?_) o deltas rfl
    rw [x.add_frame e amount]
    exact h
  generalize (o.addAll cs deltas).1 = y at same ⊢
  cases y
  cases o
  simp_all

/-- Everything that a return does (R70). -/
theorem Outbox.giveBack_eq (cs : Option Half) (o : Outbox) :
    o.giveBack cs =
      ({ o with
          pending := (o.addAll cs o.flightDeltas).1.pending
          saturated := (o.addAll cs o.flightDeltas).1.saturated
          zeroList := o.flightZeros ++ o.zeroList
          freeze := o.freeze || o.flightFreeze
          leave := o.leave || o.flightLeave
          flightDeltas := [], flightZeros := [], flightFreeze := false, flightLeave := false },
        (o.addAll cs o.flightDeltas).2) := by
  have frame := o.addAll_frame cs o.flightDeltas
  simp only [Outbox.addAll] at frame ⊢
  simp only [Outbox.giveBack, Outbox.emptyFlight]
  rw [frame]

@[simp] theorem Outbox.giveBack_flightEmpty (cs : Option Half) (o : Outbox) : (o.giveBack cs).1.flightEmpty = true := by
  rw [Outbox.giveBack_eq]; rfl

@[simp] theorem Outbox.retire_flightEmpty (o : Outbox) : o.retire.flightEmpty = true := rfl

theorem Outbox.selection_length (o : Outbox) : o.selection.length ≤ 8 := by
  simp only [Outbox.selection, Config.deltasPerFrame, List.length_take]; omega

/-- What a composition takes has a nonzero pending amount (R65). -/
theorem Outbox.pending_ne_zero_of_mem_selection {o : Outbox} {e : Entry} (h : e ∈ o.selection) : o.pending[e] ≠ 0 := by
  have := List.mem_of_mem_take h
  simpa using (List.mem_filter.mp this).2

/-- The amount sent keeps the sign, is not larger than the pending amount, and lies within the frame's range (R65). -/
theorem amountSent_bounds (pending : Int) :
    -2047 ≤ amountSent pending ∧ amountSent pending ≤ 2047 ∧ (pending = 0 ↔ amountSent pending = 0) ∧
    (0 ≤ pending → 0 ≤ amountSent pending ∧ amountSent pending ≤ pending) ∧
    (pending ≤ 0 → pending ≤ amountSent pending ∧ amountSent pending ≤ 0) := by
  simp only [amountSent, Config.amountLimit]; omega

/-- The amount sent survives its 12-bit field (R46). -/
theorem toInt_amountSent (pending : Int) : (BitVec.ofInt 12 (amountSent pending)).toInt = amountSent pending := by
  have := amountSent_bounds pending
  rw [BitVec.toInt_ofInt, Int.bmod_eq_of_le_mul_two] <;> omega

end Sys2Proof.Machine
end

