-- ==== Sys2Proof/Laws/Counting.lean ====
section
/-! SUPPORT. What a sample, an event of an input and an event of a passage detector can do (R103 to R121). -/

namespace Sys2Proof.Machine

open Sys2Proof.Safety

/-- Everything that one sample of a used input can do (R104, R105). -/
theorem filterInput_cases (settle : Nat) (input : Input) (sample : Level) :
    (input.primed = false ∧ filterInput settle input sample = ({ primed := true, level := sample, run := 0 }, false)) ∨
    (input.primed = true ∧ sample = input.level ∧ filterInput settle input sample = ({ input with run := 0 }, false)) ∨
    (input.primed = true ∧ sample ≠ input.level ∧ input.run + 1 < settle ∧
      filterInput settle input sample = ({ input with run := input.run + 1 }, false)) ∨
    (input.primed = true ∧ sample ≠ input.level ∧ settle ≤ input.run + 1 ∧
      filterInput settle input sample = ({ input with level := sample, run := 0 }, true)) := by
  unfold filterInput
  split
  · exact .inl ⟨by simp_all, rfl⟩
  · rename_i primed
    have primed : input.primed = true := by simpa using primed
    split
    · exact .inr (.inl ⟨primed, by assumption, rfl⟩)
    · split
      · exact .inr (.inr (.inl ⟨primed, by assumption, by assumption, rfl⟩))
      · exact .inr (.inr (.inr ⟨primed, by assumption, by omega, rfl⟩))

/-- The run count after a sample stays below the settle count, or is 0 (R105). -/
theorem filterInput_run (settle : Nat) (input : Input) (sample : Level) :
    (filterInput settle input sample).1.run = 0 ∨ (filterInput settle input sample).1.run < settle := by
  rcases filterInput_cases settle input sample with ⟨-, eq⟩ | ⟨-, -, eq⟩ | ⟨-, -, lt, eq⟩ | ⟨-, -, -, eq⟩ <;> rw [eq]
  · exact .inl rfl
  · exact .inl rfl
  · exact .inr lt
  · exact .inl rfl

/-- Everything that one event can do to a detector (R116, R121). -/
theorem Detector.take_cases (limit : Option Nat) (d : Detector) (change : PairChange) :
    (d.state = .stuck ∧ ((d.mark change).markA || (d.mark change).markB) = true ∧
      d.take limit change = (d.mark change, .none)) ∨
    (d.state = .stuck ∧ ((d.mark change).markA || (d.mark change).markB) = false ∧
      d.take limit change = ({ d.mark change with state := .idle }, .none)) ∨
    (∃ state passage, d.state ≠ .stuck ∧ passageTable d.state change = some (state, passage) ∧
      d.take limit change = ({ d.mark change with state := state, timer := timerIn limit state }, passage)) ∨
    (d.state ≠ .stuck ∧ passageTable d.state change = none ∧ d.take limit change = (d, .none)) := by
  by_cases stuck : d.state = .stuck
  · cases marked : (d.mark change).markA || (d.mark change).markB
    · exact .inr (.inl ⟨stuck, rfl, by simp [Detector.take, stuck, marked]⟩)
    · exact .inl ⟨stuck, rfl, by simp [Detector.take, stuck, marked]⟩
  · cases row : passageTable d.state change with
    | none => exact .inr (.inr (.inr ⟨stuck, rfl, by simp only [Detector.take, if_neg stuck, row]⟩))
    | some next =>
      obtain ⟨state, passage⟩ := next
      exact .inr (.inr (.inl ⟨state, passage, stuck, rfl, by simp only [Detector.take, if_neg stuck, row]⟩))

/-- Table 7-4 never enters STUCK (R116). -/
theorem passageTable_ne_stuck {state next : PassageState} {change : PairChange} {passage : Passage}
    (h : passageTable state change = some (next, passage)) : next ≠ .stuck := by
  cases state <;> cases change <;> simp [passageTable] at h <;> simp [← h.1]

/-- A map that names no entry adds nothing (R117). -/
theorem State.addMap_cases (s : State) (map : CountMap) :
    (map.entry = none ∧ s.addMap map = s) ∨ (∃ e, map.entry = some e ∧ s.addMap map = s.addPending e map.amount) := by
  unfold State.addMap
  split
  · exact .inr ⟨_, by assumption, rfl⟩
  · exact .inl ⟨by assumption, rfl⟩

/-- What an addition of counts or passages leaves: all but the Outbox's table and flags, and the notices. -/
theorem State.addMap_frame (s : State) (map : CountMap) :
    s.addMap map = { s with outbox := (s.addMap map).outbox, notices := (s.addMap map).notices } := by
  rcases s.addMap_cases map with ⟨-, eq⟩ | ⟨e, -, eq⟩ <;> rw [eq]
  rfl

/-- What an event of an input leaves: all but the detectors, the Outbox and the notices (R107). -/
theorem State.takeInputEvent_frame (s : State) (i : Fin 8) :
    s.takeInputEvent i = { s with
      detectors := (s.takeInputEvent i).detectors, outbox := (s.takeInputEvent i).outbox
      notices := (s.takeInputEvent i).notices } := by
  have pair : ∀ now, s.takePairChange i now = { s with
      detectors := (s.takePairChange i now).detectors, outbox := (s.takePairChange i now).outbox
      notices := (s.takePairChange i now).notices } := by
    intro now
    simp only [State.takePairChange]
    split
    · rfl
    all_goals
      refine Eq.trans (State.addMap_frame _ _) ?_
      rcases State.addMap_cases _ _ with ⟨-, eq⟩ | ⟨e, -, eq⟩ <;> rw [eq]
      rfl
  unfold State.takeInputEvent
  dsimp only
  split
  · split
    · refine Eq.trans (State.addMap_frame _ _) ?_
      rcases s.addMap_cases (s.settings.firstMap i) with ⟨-, eq⟩ | ⟨e, -, eq⟩ <;> rw [eq]
      rfl
    · rfl
  · exact pair _
  · exact pair _
  · rfl

/-- Whatever one event of an input keeps, all the events of a sample instant keep. -/
theorem State.takeSamples_induction {P : State → Prop} (levels : Byte) (order : List (Fin 8)) (s : State)
    (step : ∀ t i, P t → P (t.takeInputEvent i))
    (start : P { s with
      inputs := { s.inputs with inputs := s.sampled levels }, detectors := s.startedDetectors levels }) :
    P (s.takeSamples levels order) := by
  unfold State.takeSamples
  generalize (eventOrder order).filter (s.changesAt levels) = events
  revert start
  generalize ({ s with
    inputs := { s.inputs with inputs := s.sampled levels }, detectors := s.startedDetectors levels } : State) = t
  intro start
  induction events generalizing t with
  | nil => exact start
  | cons i rest ih => exact ih _ (step t i start)

/-- Every input stands exactly once in the order of events (entry 10). -/
theorem eventOrder_nodup (order : List (Fin 8)) : (eventOrder order).Nodup := by
  unfold eventOrder
  refine List.Nodup.append (List.nodup_dedup _) ((List.nodup_finRange 8).filter _) ?_
  intro i h1 h2
  simp_all

theorem mem_eventOrder (order : List (Fin 8)) (i : Fin 8) : i ∈ eventOrder order := by
  unfold eventOrder
  by_cases h : i ∈ order <;> simp [h]

/-! ### The events of a sample instant, as the statements spell them -/

/-- One addition, with its posting, written out as Safety has it (R62). -/
theorem State.addPending_eq_addsTo (s : State) (e : Entry) (amount : Int) : s.addPending e amount = addsTo s e amount := by
  unfold State.addPending addsTo Outbox.addNoting Outbox.add
  dsimp only [amountLost, saturate, State.postAll, State.noticeCs, Config.pendingLimit]
  simp only [Int.natAbs_eq_zero, Int.sub_eq_zero]
  split
  · next h => rw [if_pos (Or.inl h)]; rfl
  · next h =>
    cases hs : s.outbox.saturated[e]
    · rw [if_neg (not_or.mpr ⟨h, by decide⟩)]; rfl
    · rw [if_pos (Or.inr rfl)]; rfl

/-- What a map adds, as Safety has it (R110, R117). -/
theorem State.addMap_eq_addsMap (s : State) (map : CountMap) : s.addMap map = addsMap s map := by
  unfold State.addMap addsMap
  cases map.entry
  · rfl
  · exact State.addPending_eq_addsTo ..

/-- The inputs whose filtered level changes at a sample instant are those that Safety names (R105). -/
theorem State.changesAt_eq_acceptsChange (s : State) (levels : Byte) (i : Fin 8) :
    s.changesAt levels i = decide (acceptsChange s levels i) := by
  unfold State.changesAt sampleInput filterInput sampledLevel acceptsChange
  split
  · next h => simp [h]
  · next hu =>
    cases s.inputs.inputs[i].primed
    · simp
    · split
      · simp_all
      · split
        · next hl => exact (decide_eq_false fun h => h.2.2.1 hl.symm).symm
        · next hl =>
          split
          · next hr => exact (decide_eq_false fun h => absurd h.2.2.2 (by omega)).symm
          · next hr => exact (decide_eq_true ⟨hu, rfl, Ne.symm hl, by omega⟩).symm

/-- What a pair makes of a change of one of its inputs, as Safety has it (R111, R117). -/
theorem State.takePairChange_eq_pairTakes (s : State) (i : Fin 8) (now : Level) :
    s.takePairChange i now = pairTakes s (pairOf i) (pairChange (decide (s.settings.inputMode i = .pairA))
      (decide (now = s.settings.blockedLevel (pairA (pairOf i))))) := by
  unfold State.takePairChange pairTakes
  dsimp only
  generalize Detector.take .. = taken
  cases taken.2
  · rfl
  all_goals exact State.addMap_eq_addsMap ..

/-- The event of an input, as Safety has it (R109 to R111). -/
theorem State.takeInputEvent_eq_takesEvent (s : State) (i : Fin 8) : s.takeInputEvent i = takesEvent s i := by
  unfold State.takeInputEvent takesEvent
  dsimp only
  cases h : s.settings.inputMode i
  · rfl
  · cases s.settings.edgeSelect i <;> cases s.inputs.inputs[i].level <;>
      simp [countsEdge, State.addMap_eq_addsMap]
  all_goals
    rw [State.takePairChange_eq_pairTakes, h]
    by_cases hb : s.inputs.inputs[i].level = s.settings.blockedLevel (pairA (pairOf i)) <;>
      simp only [hb, decide_true, decide_false] <;> rfl

end Sys2Proof.Machine
end

