-- ==== Sys2Proof/Laws/Notices.lean ====
section
/-! SUPPORT. What a posting, a delivery and an order of postings can do to the Notice queue (R141 to R144). -/

namespace Sys2Proof.Machine

/-- Everything that one posting can do (R142). -/
theorem postTo_cases (queue : List Notice) (n : Notice) :
    (holdsOverflow queue = true ∧ postTo queue n = queue.map fun r => if r.isOverflow then countLost r else r) ∨
    (holdsOverflow queue = false ∧ queue.length + 1 < Config.noticeDepth ∧ postTo queue n = queue ++ [n]) ∨
    (holdsOverflow queue = false ∧ Config.noticeDepth ≤ queue.length + 1 ∧
      postTo queue n = queue ++ [overflowRecord 1]) := by
  unfold postTo
  split
  · exact .inl ⟨by assumption, rfl⟩
  · split
    · exact .inr (.inl ⟨by simpa using ‹¬holdsOverflow queue = true›, by assumption, rfl⟩)
    · exact .inr (.inr ⟨by simpa using ‹¬holdsOverflow queue = true›, by omega, rfl⟩)

@[simp] theorem countLost_isOverflow (n : Notice) : (countLost n).isOverflow = n.isOverflow := rfl

@[simp] theorem overflowRecord_isOverflow (lost : Tally) : (overflowRecord lost).isOverflow = true := rfl

/-- The counting of a lost notice moves no record and makes none an OVERFLOW record. -/
theorem map_countLost_isOverflow (queue : List Notice) :
    (queue.map fun r => if r.isOverflow then countLost r else r).map Notice.isOverflow = queue.map Notice.isOverflow := by
  rw [List.map_map]
  refine List.map_congr_left fun r _ => ?_
  simp only [Function.comp]
  split <;> simp

/-- A posting never shortens the queue, and lengthens it by at most one. -/
theorem length_postTo (queue : List Notice) (n : Notice) :
    queue.length ≤ (postTo queue n).length ∧ (postTo queue n).length ≤ queue.length + 1 := by
  rcases postTo_cases queue n with ⟨-, eq⟩ | ⟨-, -, eq⟩ | ⟨-, -, eq⟩ <;> rw [eq] <;> simp

theorem postTo_ne_nil (queue : List Notice) (n : Notice) : postTo queue n ≠ [] := by
  rcases postTo_cases queue n with ⟨held, eq⟩ | ⟨-, -, eq⟩ | ⟨-, -, eq⟩ <;> rw [eq]
  · intro h
    simp_all [holdsOverflow]
  · simp
  · simp

@[simp] theorem postAllTo_nil (queue : List Notice) : postAllTo queue [] = queue := rfl

@[simp] theorem postAllTo_cons (queue : List Notice) (n : Notice) (ns : List Notice) :
    postAllTo queue (n :: ns) = postAllTo (postTo queue n) ns := rfl

theorem postAllTo_append (queue : List Notice) (ns more : List Notice) :
    postAllTo queue (ns ++ more) = postAllTo (postAllTo queue ns) more := List.foldl_append

/-- Whatever one posting keeps, several keep. -/
theorem postAllTo_induction {P : List Notice → Prop} (step : ∀ queue n, P queue → P (postTo queue n))
    (queue : List Notice) (ns : List Notice) (start : P queue) : P (postAllTo queue ns) := by
  induction ns generalizing queue with
  | nil => exact start
  | cons n rest ih => exact ih (postTo queue n) (step queue n start)

/-- Everything that a delivery can do (R143, R144). -/
theorem deliver_cases (n : Notice) (rest : List Notice) (reported : Notice) :
    (deliver (n :: rest) reported = rest ∧
      (n.isOverflow = false ∨ n.value.getD 0 = reported.value.getD 0)) ∨
    (n.isOverflow = true ∧ n.value.getD 0 ≠ reported.value.getD 0 ∧
      deliver (n :: rest) reported =
        { n with value := some (n.value.getD 0 - reported.value.getD 0) } :: rest) := by
  simp only [deliver]
  split
  · split
    · exact .inl ⟨rfl, .inr (by assumption)⟩
    · exact .inr ⟨by assumption, by assumption, rfl⟩
  · exact .inl ⟨rfl, .inl (by simp_all)⟩

/-- All the notices of a close, block by block. -/
def Posts.all (p : Posts) : List Notice := p.link ++ p.replica ++ p.watch ++ p.snapshot ++ p.outbox ++ p.membership

/-- A notice taken from a block and what is left are together all the notices there were. -/
theorem Posts.take_perm {p left : Posts} {b : NoticeBlock} {n : Notice} (h : p.take b = some (n, left)) :
    (n :: left.all).Perm p.all := by
  obtain ⟨l, r, w, sn, o, m⟩ := p
  cases b <;> simp only [Posts.take] at h <;> split at h <;>
    simp only [Option.some.injEq, Prod.mk.injEq, reduceCtorEq] at h <;> obtain ⟨rfl, rfl⟩ := h <;>
    simp only [Posts.all] at * <;> simp_all [List.perm_iff_count] <;> intro a <;> simp [List.count_cons] <;> omega

/-- Whatever order the blocks post in, each notice enters exactly once (R141). -/
theorem Posts.inOrder_perm (order : List NoticeBlock) (p : Posts) : (Posts.inOrder order p).Perm p.all := by
  induction order generalizing p with
  | nil => exact List.Perm.refl _
  | cons b rest ih =>
    simp only [Posts.inOrder]
    split
    · rename_i n left h
      exact ((ih left).cons n).trans (Posts.take_perm h)
    · exact ih p

theorem Posts.mem_inOrder (order : List NoticeBlock) (p : Posts) (n : Notice) :
    n ∈ Posts.inOrder order p ↔ n ∈ p.all := (Posts.inOrder_perm order p).mem_iff

end Sys2Proof.Machine
end

