-- ==== Sys2Proof/Laws/Link.lean ====
section
/-! SUPPORT. What the shared operations of the tally link, of one sampled bit and of a round close can do
(R24 to R42, R52 to R60, R80). -/

namespace Sys2Proof.Machine

@[simp] theorem Link.enterOff_eq (l : Link) : l.enterOff = { Link.reset with lbeat := l.lbeat } := rfl

@[simp] theorem Link.enterHold_state (l : Link) (interval : Nat) : (l.enterHold interval).state = .hold := rfl
@[simp] theorem Link.enterHold_holdLmark (l : Link) (interval : Nat) : (l.enterHold interval).holdLmark = true := rfl
@[simp] theorem Link.enterHold_holdLbeat (l : Link) (interval : Nat) : (l.enterHold interval).holdLbeat = false := rfl
@[simp] theorem Link.enterHold_holdLdata (l : Link) (interval : Nat) : (l.enterHold interval).holdLdata = false := rfl

/-- From OFF the Link controller goes to HOLD when LMARK is low, and to SYNC when it is high (R25, R26). -/
theorem Link.enterSync_state (l : Link) (m : Record) (lmark lbeat : Level) :
    (l.enterSync m lmark lbeat).state = match lmark with
      | .low => .hold
      | .high => .sync := by cases lmark <;> rfl

@[simp] theorem Link.takeRise_state (l : Link) (m : Record) : (l.takeRise m).state = l.state := rfl
@[simp] theorem Link.takeRise_slot (l : Link) (m : Record) : (l.takeRise m).slot = l.slot := rfl
@[simp] theorem Link.takeRise_presence (l : Link) (m : Record) : (l.takeRise m).presence = l.presence := rfl

/-- The end of a slot moves to the next one, or to VERDICT after slot N - 1, and releases no line (R34). -/
theorem Link.afterSlot_cases (l : Link) (m : Record) :
    (l.slot + 1 < m.clusterSize ∧ l.afterSlot m = { l with slot := l.slot + 1, bit := 0, slotLength := none }) ∨
    (m.clusterSize ≤ l.slot + 1 ∧ l.afterSlot m = { l with state := .verdict }) := by
  unfold Link.afterSlot
  split
  · exact .inl ⟨by assumption, rfl⟩
  · exact .inr ⟨by omega, rfl⟩

/-- A line that is held in a round is held in SLOTS or VERDICT. -/
theorem Link.inRound_iff (l : Link) : l.inRound = true ↔ l.state = .slots ∨ l.state = .verdict := by
  simp [Link.inRound]

theorem Link.riseCanCome_iff (l : Link) :
    l.riseCanCome = true ↔ (l.state = .slots ∨ l.state = .verdict) ∧ l.lbeat = .low ∧ l.holdLbeat = false := by
  simp [Link.riseCanCome, Link.inRound, and_assoc]

/-- A collision is a level that the station did not drive: what it holds reads low, what it releases high (R52). -/
theorem Link.collides_iff (l : Link) (ldata : Level) :
    l.collides ldata = true ↔ ¬(l.holdLdata = true ↔ ldata = .low) := by
  cases h : l.holdLdata <;> cases ldata <;> simp [Link.collides, h]

/-- DIVERGED comes at most once for a frame (R60). -/
theorem State.length_divergence (s : State) (result : SlotResult) : (s.divergence result).length ≤ 1 := by
  unfold State.divergence
  split
  · dsimp only; split <;> simp
  all_goals simp

/-- Everything that the first collided bit can do (R53, R54). -/
theorem State.takeCollision_cases (s : State) (position : Nat) :
    (s.frame.strike = false ∧ s.takeCollision position =
      { s.post (s.collisionNotice position) with
        link := { s.link with holdLdata := false }
        frame := { s.frame with collided := true, strike := true, object := true } }) ∨
    (s.frame.strike = true ∧ s.takeCollision position = (s.post (s.collisionNotice position)).enterFault) := by
  unfold State.takeCollision
  cases h : s.frame.strike
  · exact .inl ⟨rfl, rfl⟩
  · exact .inr ⟨rfl, rfl⟩

/-- A change to FAULT leaves nothing in flight, the link in OFF and the replica stale (R72, R96). -/
theorem State.enterFault_state (s : State) :
    s.enterFault.member = { s.member with state := .fault } ∧ s.enterFault.outbox = (s.outbox.giveBack s.noticeCs).1 ∧
    s.enterFault.link = s.link.enterOff ∧ s.enterFault.frame = s.frame.afterOff ∧
    s.enterFault.replica = { s.replica with stale := true } := ⟨rfl, rfl, rfl, rfl, rfl⟩

/-- Everything that the sample of a slot bit can do: the bit recorded, a collision taken, the slot ended. -/
theorem State.sampleSlotBit_cases (s : State) (ldata : Level) :
    let recorded := s.recordBit ldata
    let compared := if s.firstCollision ldata then recorded.takeCollision recorded.link.bit else recorded
    s.sampleSlotBit ldata = compared ∨
    (compared.link.state ≠ .off ∧ ∃ result, compared.slotEnded = some result ∧
      s.sampleSlotBit ldata = compared.endSlot result) := by
  intro recorded compared
  show (if compared.link.state = .off then compared else _) = compared ∨ _
  split
  · exact .inl rfl
  · rename_i on
    cases ended : compared.slotEnded with
    | none => exact .inl rfl
    | some result => exact .inr ⟨on, result, rfl, by
      simp only [compared, recorded] at ended on ⊢
      simp only [State.sampleSlotBit, if_neg on, ended]⟩

/-- A rise samples a slot bit in SLOTS and adds a verdict bit in VERDICT (R29). -/
theorem State.takeRise_cases (s : State) (ldata : Level) :
    (s.link.state = .slots ∧
      s.takeRise ldata = State.sampleSlotBit { s with link := s.link.takeRise s.settings } ldata) ∨
    (s.link.state ≠ .slots ∧ s.takeRise ldata =
      { s with link := { s.link.takeRise s.settings with verdicts := s.link.verdicts ++ [ldata] } }) := by
  unfold State.takeRise
  split
  · exact .inl ⟨by assumption, rfl⟩
  · exact .inr ⟨by assumption, rfl⟩

/-- A close makes at most one change of station state, the one that the outcome calls for (R80). -/
theorem State.closeRound_cases (s : State) (order : List NoticeBlock) :
    (s.changeDue s.outcome (s.takeOutcome order).replica (s.takeOutcome order).member = none ∧
      s.closeRound order = s.takeOutcome order) ∨
    (∃ cause, s.changeDue s.outcome (s.takeOutcome order).replica (s.takeOutcome order).member = some cause ∧
      s.closeRound order = (s.takeOutcome order).changeAtClose cause) := by
  cases due : s.changeDue s.outcome (s.takeOutcome order).replica (s.takeOutcome order).member with
  | none => exact .inl ⟨rfl, by simp only [State.closeRound, due]⟩
  | some cause => exact .inr ⟨cause, rfl, by simp only [State.closeRound, due]⟩

/-- The causes that a close can have, by the station state before it (Table 5-3, R80). -/
theorem State.changeDue_causes (s : State) (o : RoundOutcome) (r : Replica) (c : Membership) {cause : Cause}
    (h : s.changeDue o r c = some cause) :
    (s.member.state = .listen ∧ (cause = .foreignDigest ∨ cause = .caughtUp ∨ cause = .founded)) ∨
    (s.member.state = .joining ∧ (cause = .foreignDigest ∨ cause = .withdrawn ∨ cause = .joined)) ∨
    (s.member.state = .member ∧ (cause = .foreignDigest ∨ cause = .withdrawn ∨ cause = .left)) := by
  unfold State.changeDue at h
  cases state : s.member.state <;> rw [state] at h <;> simp only [reduceCtorEq] at h <;> (repeat' split at h) <;>
    simp_all

/-- What the outcome of a round leaves outside the notices (R39, R80). -/
theorem State.takeOutcome_frame (s : State) (order : List NoticeBlock) :
    (s.takeOutcome order).pending = s.pending ∧ (s.takeOutcome order).resetting = s.resetting ∧
    (s.takeOutcome order).setup = s.setup ∧ (s.takeOutcome order).inputs = s.inputs ∧
    (s.takeOutcome order).detectors = s.detectors ∧ (s.takeOutcome order).tap = s.tap ∧
    (s.takeOutcome order).link = s.link.enterHold s.settings.roundInterval ∧
    (s.takeOutcome order).frame = s.frame.afterClose ∧
    (s.takeOutcome order).member = s.memberAtClose s.outcome ∧
    (s.takeOutcome order).replica = (s.replicaAtClose s.outcome).1 :=
  ⟨rfl, rfl, rfl, rfl, rfl, rfl, rfl, rfl, rfl, rfl⟩

/-- The replica at a close is applied, restarted, adopted or left (R10, R13, R14, R15). -/
theorem State.replicaAtClose_cases (s : State) (o : RoundOutcome) :
    (s.appliesRound o = true ∧ s.replicaAtClose o = s.replica.applyRound s.settings s.roundBusiness) ∨
    (s.appliesRound o = false ∧ s.replicaAtClose o = (s.replica, [])) ∨
    (s.member.state = .listen ∧ s.replicaAtClose o = (Replica.empty, [])) ∨
    (s.member.state = .listen ∧ s.replica.inDoubt s.frame.results = false ∧
      s.replicaAtClose o = (s.replica.adopt s.settings (ownDigestFrames s.frame.results), [])) := by
  unfold State.replicaAtClose
  split
  · exact .inl ⟨by assumption, rfl⟩
  · rename_i notApplied
    have notApplied : s.appliesRound o = false := by simpa using notApplied
    split
    · rename_i listening
      split
      · exact .inr (.inl ⟨notApplied, rfl⟩)
      · split
        · exact .inr (.inr (.inl ⟨listening.1, rfl⟩))
        · rename_i sure
          exact .inr (.inr (.inr ⟨listening.1, by simpa using sure, rfl⟩))
    · exact .inr (.inl ⟨notApplied, rfl⟩)

/-- The Outbox at a close is retired, given back or left (R69, R70). -/
theorem State.outboxAtClose_cases (s : State) (o : RoundOutcome) (cs : Option Half) :
    (o.ownPresent = true ∧ o.committed = true ∧ (s.outboxAtClose o cs).1 = s.outbox.retire) ∨
    (s.outboxAtClose o cs).1 = (s.outbox.giveBack cs).1 ∨ (s.outboxAtClose o cs).1 = s.outbox := by
  unfold State.outboxAtClose
  (repeat' split) <;> simp_all

end Sys2Proof.Machine
end

