-- ==== Sys2Proof/Laws/Record.lean ====
section
/-! SUPPORT. The setup record as an addressed store: a read after a write, and the canonical form, which every
operation over the record keeps. -/

namespace Sys2Proof.Machine

@[simp] theorem Record.read_nil (offset : Nat) : Record.read [] offset = 0 := rfl

theorem Record.read_cons (k : Nat) (b : Byte) (rest : Record) (offset : Nat) :
    Record.read ((k, b) :: rest) offset = if k = offset then b else Record.read rest offset := rfl

/-- An offset below every listed one reads as a power-on reset leaves it. -/
theorem Record.read_below {least : Nat} {m : Record} (h : Record.wfFrom least m = true) {offset : Nat}
    (below : offset < least) : m.read offset = 0 := by
  induction m generalizing least with
  | nil => rfl
  | cons cell rest ih =>
    obtain ⟨k, b⟩ := cell
    simp only [Record.wfFrom, Bool.and_eq_true, decide_eq_true_eq] at h
    rw [Record.read_cons, if_neg (by omega)]
    exact ih h.2 (by omega)

/-- A record whose offsets rise from `least` on also rises from any smaller one on. -/
theorem Record.wfFrom_mono {least smaller : Nat} {m : Record} (h : Record.wfFrom least m = true)
    (le : smaller ≤ least) : Record.wfFrom smaller m = true := by
  cases m with
  | nil => rfl
  | cons cell rest =>
    simp only [Record.wfFrom, Bool.and_eq_true, decide_eq_true_eq] at h ⊢
    exact ⟨⟨⟨by omega, h.1.1.2⟩, h.1.2⟩, h.2⟩

/-- A write leaves what every other offset reads as. -/
theorem Record.read_write_other (m : Record) {offset other : Nat} (b : Byte) (ne : other ≠ offset) :
    (m.write offset b).read other = m.read other := by
  induction m with
  | nil =>
    simp only [Record.write]
    split
    · rfl
    · simp [Record.read_cons, Ne.symm ne]
  | cons cell rest ih =>
    obtain ⟨k, c⟩ := cell
    simp only [Record.write]
    split
    · split <;> simp [Record.read_cons, Ne.symm ne]
    · split
      · subst_vars
        split <;> simp [Record.read_cons, Ne.symm ne]
      · simp only [Record.read_cons, ih]

/-- A read after a write to the same offset gives the byte written. -/
theorem Record.read_write_same_from {least : Nat} {m : Record} (h : Record.wfFrom least m = true) (offset : Nat)
    (b : Byte) : (m.write offset b).read offset = b := by
  induction m generalizing least with
  | nil =>
    simp only [Record.write]
    split
    · simp_all [unlistedByte]
    · simp [Record.read_cons]
  | cons cell rest ih =>
    obtain ⟨k, c⟩ := cell
    have tail : Record.wfFrom (k + 1) rest = true := by
      simp only [Record.wfFrom, Bool.and_eq_true, decide_eq_true_eq] at h; exact h.2
    simp only [Record.write]
    split
    · split
      · rw [Record.read_cons, if_neg (by omega), Record.read_below tail (by omega)]; simp_all [unlistedByte]
      · simp [Record.read_cons]
    · split
      · split
        · rw [Record.read_below tail (by omega)]; simp_all [unlistedByte]
        · simp [Record.read_cons]
      · rw [Record.read_cons, if_neg (by omega)]; exact ih tail

theorem Record.read_write_same {m : Record} (h : m.wf = true) (offset : Nat) (b : Byte) :
    (m.write offset b).read offset = b := Record.read_write_same_from h offset b

/-- A write at an offset of the record keeps the canonical form. -/
theorem Record.wfFrom_write {least : Nat} {m : Record} (h : Record.wfFrom least m = true) {offset : Nat} (b : Byte)
    (ge : least ≤ offset) (lt : offset < Config.recordBytes) : Record.wfFrom least (m.write offset b) = true := by
  induction m generalizing least with
  | nil =>
    simp only [Record.write]
    split
    · rfl
    · simp_all [Record.wfFrom]
  | cons cell rest ih =>
    obtain ⟨k, c⟩ := cell
    simp only [Record.wfFrom, Bool.and_eq_true, decide_eq_true_eq] at h
    simp only [Record.write]
    split
    · split
      · simp_all [Record.wfFrom]
      · simp only [Record.wfFrom, Bool.and_eq_true, decide_eq_true_eq]
        exact ⟨⟨⟨ge, lt⟩, by assumption⟩, ⟨⟨by omega, h.1.1.2⟩, h.1.2⟩, h.2⟩
    · split
      · split
        · exact Record.wfFrom_mono h.2 (by omega)
        · simp only [Record.wfFrom, Bool.and_eq_true, decide_eq_true_eq]
          subst_vars
          exact ⟨⟨⟨ge, lt⟩, by assumption⟩, h.2⟩
      · simp only [Record.wfFrom, Bool.and_eq_true, decide_eq_true_eq]
        exact ⟨h.1, ih h.2 (by omega)⟩

theorem Record.wf_write {m : Record} (h : m.wf = true) {offset : Nat} (b : Byte) (lt : offset < Config.recordBytes) :
    (m.write offset b).wf = true := Record.wfFrom_write h b (Nat.zero_le _) lt

/-- Bytes written within the record keep the canonical form. -/
theorem Record.wf_writeAll {m : Record} (h : m.wf = true) {offset : Nat} (data : List Byte)
    (fits : offset + data.length ≤ Config.recordBytes) : (m.writeAll offset data).wf = true := by
  induction data generalizing m offset with
  | nil => exact h
  | cons b rest ih =>
    simp only [List.length_cons] at fits
    exact ih (Record.wf_write h b (by omega)) (by omega)

/-- The canonical form makes equal contents equal data: two records that read alike are the same list. -/
theorem Record.eq_of_read {least : Nat} {m n : Record} (hm : Record.wfFrom least m = true)
    (hn : Record.wfFrom least n = true) (same : ∀ offset, m.read offset = n.read offset) : m = n := by
  induction m generalizing n least with
  | nil =>
    cases n with
    | nil => rfl
    | cons cell rest =>
      obtain ⟨k, b⟩ := cell
      have := same k
      simp only [Record.wfFrom, Bool.and_eq_true, decide_eq_true_eq] at hn
      simp [Record.read_cons] at this
      exact absurd this.symm hn.1.2
  | cons cell rest ih =>
    obtain ⟨k, b⟩ := cell
    simp only [Record.wfFrom, Bool.and_eq_true, decide_eq_true_eq] at hm
    cases n with
    | nil =>
      have := same k
      simp [Record.read_cons] at this
      exact absurd this hm.1.2
    | cons cell' rest' =>
      obtain ⟨k', b'⟩ := cell'
      simp only [Record.wfFrom, Bool.and_eq_true, decide_eq_true_eq] at hn
      have keys : k = k' := by
        rcases Nat.lt_trichotomy k k' with lt | eq | gt
        · have := same k
          rw [Record.read_cons, if_pos rfl, Record.read_cons, if_neg (by omega), Record.read_below hn.2 (by omega)] at this
          exact absurd this hm.1.2
        · exact eq
        · have := same k'
          rw [Record.read_cons, if_neg (by omega), Record.read_below hm.2 (by omega), Record.read_cons, if_pos rfl] at this
          exact absurd this.symm hn.1.2
      subst keys
      have bytes : b = b' := by simpa [Record.read_cons] using same k
      subst bytes
      congr 1
      refine ih hm.2 hn.2 fun offset => ?_
      by_cases at_ : k < offset
      · have := same offset
        rwa [Record.read_cons, if_neg (by omega), Record.read_cons, if_neg (by omega)] at this
      · rw [Record.read_below hm.2 (by omega), Record.read_below hn.2 (by omega)]

theorem State.reset_record_wf : State.reset.setup.record.wf = true := rfl

end Sys2Proof.Machine
end

