-- ==== Sys2Proof/Laws/Requests.lean ====
section
/-! SUPPORT. What the edges of TCLK leave of the tap, and what a tap request can do: everything but the tap is its
owner's effect, and nothing happens at an edge that does not complete it (R146, R150, R155). -/

namespace Sys2Proof.Machine

/-! ### The edges of TCLK -/

/-- An edge that is another command leaves the tap too; no edge touches anything else (entry 4). -/
@[simp] theorem State.withEdge_eq (s : State) (edge : Option Tap) :
    s.withEdge edge = { s with tap := edge.getD s.tap } := by
  cases edge <;> rfl

/-- Everything that comes before a sampling edge acts: the shifting edge that is due, or nothing (R146, entry 30). -/
theorem Tap.toSamplingEdge_cases (t : Tap) :
    (t.shiftDue = true ∧ t.toSamplingEdge = { t.shiftEdge with tclk := t.sampledAt }) ∨
    (t.shiftDue = false ∧ t.toSamplingEdge = { t with tclk := t.sampledAt }) := by
  unfold Tap.toSamplingEdge
  cases due : t.shiftDue
  · exact .inr ⟨rfl, rfl⟩
  · exact .inl ⟨rfl, rfl⟩

@[simp] theorem Tap.shiftEdge_state (t : Tap) : t.shiftEdge.state = t.state := rfl
@[simp] theorem Tap.shiftEdge_tsel (t : Tap) : t.shiftEdge.tsel = t.tsel := rfl
@[simp] theorem Tap.shiftEdge_shiftIn (t : Tap) : t.shiftEdge.shiftIn = t.shiftIn := rfl
@[simp] theorem Tap.shiftEdge_shiftOut (t : Tap) : t.shiftEdge.shiftOut = t.shiftOut := rfl
@[simp] theorem Tap.shiftEdge_bits (t : Tap) : t.shiftEdge.bits = t.bits := rfl
@[simp] theorem Tap.shiftEdge_code (t : Tap) : t.shiftEdge.code = t.code := rfl
@[simp] theorem Tap.shiftEdge_operands (t : Tap) : t.shiftEdge.operands = t.operands := rfl
@[simp] theorem Tap.shiftEdge_answer (t : Tap) : t.shiftEdge.answer = t.answer := rfl
@[simp] theorem Tap.shiftEdge_sent (t : Tap) : t.shiftEdge.sent = t.sent := rfl
@[simp] theorem Tap.shiftEdge_early (t : Tap) : t.shiftEdge.early = t.early := rfl
@[simp] theorem Tap.shiftEdge_deselect (t : Tap) : t.shiftEdge.deselect = t.deselect := rfl
@[simp] theorem Tap.shiftEdge_fmt1 (t : Tap) : t.shiftEdge.fmt1 = t.fmt1 := rfl
@[simp] theorem Tap.shiftEdge_fmt0 (t : Tap) : t.shiftEdge.fmt0 = t.fmt0 := rfl

@[simp] theorem Tap.toSamplingEdge_state (t : Tap) : t.toSamplingEdge.state = t.state := by
  unfold Tap.toSamplingEdge; split <;> rfl
@[simp] theorem Tap.toSamplingEdge_tsel (t : Tap) : t.toSamplingEdge.tsel = t.tsel := by
  unfold Tap.toSamplingEdge; split <;> rfl
@[simp] theorem Tap.toSamplingEdge_shiftIn (t : Tap) : t.toSamplingEdge.shiftIn = t.shiftIn := by
  unfold Tap.toSamplingEdge; split <;> rfl
@[simp] theorem Tap.toSamplingEdge_shiftOut (t : Tap) : t.toSamplingEdge.shiftOut = t.shiftOut := by
  unfold Tap.toSamplingEdge; split <;> rfl
@[simp] theorem Tap.toSamplingEdge_bits (t : Tap) : t.toSamplingEdge.bits = t.bits := by
  unfold Tap.toSamplingEdge; split <;> rfl
@[simp] theorem Tap.toSamplingEdge_code (t : Tap) : t.toSamplingEdge.code = t.code := by
  unfold Tap.toSamplingEdge; split <;> rfl
@[simp] theorem Tap.toSamplingEdge_operands (t : Tap) : t.toSamplingEdge.operands = t.operands := by
  unfold Tap.toSamplingEdge; split <;> rfl
@[simp] theorem Tap.toSamplingEdge_answer (t : Tap) : t.toSamplingEdge.answer = t.answer := by
  unfold Tap.toSamplingEdge; split <;> rfl
@[simp] theorem Tap.toSamplingEdge_sent (t : Tap) : t.toSamplingEdge.sent = t.sent := by
  unfold Tap.toSamplingEdge; split <;> rfl
@[simp] theorem Tap.toSamplingEdge_early (t : Tap) : t.toSamplingEdge.early = t.early := by
  unfold Tap.toSamplingEdge; split <;> rfl
@[simp] theorem Tap.toSamplingEdge_deselect (t : Tap) : t.toSamplingEdge.deselect = t.deselect := by
  unfold Tap.toSamplingEdge; split <;> rfl
@[simp] theorem Tap.toSamplingEdge_fmt1 (t : Tap) : t.toSamplingEdge.fmt1 = t.fmt1 := by
  unfold Tap.toSamplingEdge; split <;> rfl
@[simp] theorem Tap.toSamplingEdge_fmt0 (t : Tap) : t.toSamplingEdge.fmt0 = t.fmt0 := by
  unfold Tap.toSamplingEdge; split <;> rfl
@[simp] theorem Tap.toSamplingEdge_tclk (t : Tap) : t.toSamplingEdge.tclk = t.sampledAt := rfl

/-- The level at which a sampling edge leaves TCLK is high exactly in the formats whose two straps agree (Table 10-2). -/
theorem Tap.sampledAt_eq (t : Tap) : t.sampledAt = if t.fmt1 = t.fmt0 then .high else .low := by
  unfold Tap.sampledAt Tap.samplesOnRising
  cases t.fmt1 <;> cases t.fmt0 <;> rfl

theorem Tap.running_iff (t : Tap) :
    t.running = true ↔ t.state = .request ∨ t.state = .operands ∨ t.state = .answer ∨ t.state = .trailing := by
  unfold Tap.running; cases t.state <;> simp

/-- Time without a command moves nothing but the tap (R146, entry 30). -/
theorem State.idle_cases (s : State) :
    (s.tap.shiftDue = true ∧ s.idle = { s with tap := s.tap.shiftEdge }) ∨ (s.tap.shiftDue = false ∧ s.idle = s) := by
  unfold State.idle
  cases due : s.tap.shiftDue
  · exact .inr ⟨rfl, rfl⟩
  · exact .inl ⟨rfl, rfl⟩

/-- The result byte is the first byte of an answer that is not clocked early (R151). -/
@[simp] theorem Answer.byteAt_zero (a : Answer) : a.byteAt false 0 = a.result.code := rfl

/-! ### Requests -/

/-- Everything that the sampling edge of a request can do. -/
theorem takeRequest_cases (code : Byte) (operands : List Byte) (effect : State → State × Answer) (s : State) :
    (s.tap.completes code operands = false ∧ takeRequest code operands effect s = .next s) ∨
    (s.tap.completes code operands = true ∧ takeRequest code operands effect s =
      .next { (effect s).1 with
        tap := s.tap.toSamplingEdge.fixAnswer code operands (effect s).2 }) := by
  unfold takeRequest
  split
  · exact .inr ⟨by assumption, rfl⟩
  · rename_i h; exact .inl ⟨by simpa using h, rfl⟩

theorem takeRequest_of_completes {code : Byte} {operands : List Byte} (effect : State → State × Answer) {s : State}
    (h : s.tap.completes code operands = true) :
    takeRequest code operands effect s = .next { (effect s).1 with
      tap := s.tap.toSamplingEdge.fixAnswer code operands (effect s).2 } := if_pos h

@[simp] theorem reading_fst (f : State → Answer) (s : State) : (reading f s).1 = s := rfl

@[simp] theorem reading_snd (f : State → Answer) (s : State) : (reading f s).2 = f s := rfl

/-- A request without operands is completed in REQUEST, one with operands in OPERANDS: never outside a transaction. -/
theorem Tap.state_of_completes {t : Tap} {code : Byte} {operands : List Byte} (h : t.completes code operands = true) :
    t.state = .request ∨ t.state = .operands := by
  unfold Tap.completes at h
  split at h <;> simp only [Bool.and_eq_true, decide_eq_true_eq] at h <;> tauto

/-- FREEZE and LEAVE: refused outside MEMBER, else one flag set (R74, R75). -/
theorem State.requestFreeze_cases (s : State) :
    (s.member.state ≠ .member ∧ s.requestFreeze = (s, answerOf .refused)) ∨
    (s.member.state = .member ∧
      s.requestFreeze = ({ s with outbox := { s.outbox with freeze := true } }, answerOk [])) := by
  unfold State.requestFreeze; split <;> simp_all

theorem State.requestLeave_cases (s : State) :
    (s.member.state ≠ .member ∧ s.requestLeave = (s, answerOf .refused)) ∨
    (s.member.state = .member ∧
      s.requestLeave = ({ s with outbox := { s.outbox with leave := true } }, answerOk [])) := by
  unfold State.requestLeave; split <;> simp_all

/-- ZERO: nothing, or the entry at the tail of the list, where it stood nowhere and the list had room (R73). -/
theorem State.requestZero_cases (s : State) (entry : Byte) :
    (∃ result, s.requestZero entry = (s, answerOf result)) ∨
    (∃ e : Entry, s.member.state = .member ∧ entryOperand entry = some e ∧ s.settings.kind e ≠ .off ∧
      e ∉ s.outbox.zeroList ∧ e ∉ s.outbox.flightZeros ∧
      s.outbox.zeroList.length + s.outbox.flightZeros.length < 4 ∧
      s.requestZero entry =
        ({ s with outbox := { s.outbox with zeroList := s.outbox.zeroList ++ [e] } }, answerOk [])) := by
  unfold State.requestZero
  split
  · exact .inl ⟨_, rfl⟩
  · split
    · exact .inl ⟨_, rfl⟩
    · rename_i e _
      split
      · exact .inl ⟨_, rfl⟩
      · split
        · exact .inl ⟨_, rfl⟩
        · split
          · exact .inl ⟨_, rfl⟩
          · refine .inr ⟨e, ?_⟩
            simp_all [Config.zeroDepth]

/-- ADJUST: nothing, or one addition to the pending amount of a used entry (R64). -/
theorem State.requestAdjust_cases (s : State) (entry : Byte) (amount : Half) :
    (∃ result, s.requestAdjust entry amount = (s, answerOf result)) ∨
    (∃ e : Entry, s.member.state ≠ .setup ∧ entryOperand entry = some e ∧ s.settings.kind e ≠ .off ∧
      s.requestAdjust entry amount = (s.addPending e amount.toInt, answerOk [])) := by
  unfold State.requestAdjust
  split
  · exact .inl ⟨_, rfl⟩
  · split
    · exact .inl ⟨_, rfl⟩
    · rename_i e _
      split
      · exact .inl ⟨_, rfl⟩
      · split
        · exact .inl ⟨_, rfl⟩
        · exact .inr ⟨e, by simp_all⟩

/-- SET_OUTPUT: nothing, or one LOCAL latch and its pin (R134). -/
theorem State.requestOutput_cases (s : State) (output level : Byte) :
    (∃ result, s.requestOutput output level = (s, answerOf result)) ∨
    (∃ (o : Fin 8) (l : Level), s.member.state ≠ .setup ∧ outputOperand output = some o ∧ levelOperand level = some l ∧
      s.settings.outputSource o = .local ∧
      s.requestOutput output level =
        ({ s with outputs := s.outputs.set o { s.outputs[o] with level := l, latch := some l } }, answerOk [])) := by
  unfold State.requestOutput
  split
  · exact .inl ⟨_, rfl⟩
  · split
    · rename_i o l _ _
      split
      · exact .inr ⟨o, l, by simp_all⟩
      · exact .inl ⟨_, rfl⟩
    · exact .inl ⟨_, rfl⟩

/-- REJOIN: nothing, or entry to LISTEN from PARKED or INCOMPATIBLE (R99). -/
theorem State.requestRejoin_cases (s : State) (lmark lbeat : Level) :
    (s.requestRejoin lmark lbeat = (s, answerOf .refused)) ∨
    ((s.member.state = .parked ∨ s.member.state = .incompatible) ∧
      s.requestRejoin lmark lbeat = (s.listenFromOff .rejoined lmark lbeat, answerOk [])) := by
  unfold State.requestRejoin; split <;> simp_all

/-- SETUP_WRITE: nothing, or bytes written within the record in SETUP (R162). -/
theorem State.requestWrite_cases (s : State) (offset : Half) (length : Byte) (data : List Byte) :
    (∃ result, s.requestWrite offset length data = (s, answerOf result)) ∨
    (s.member.state = .setup ∧ 1 ≤ length.toNat ∧ length.toNat ≤ 32 ∧ offset.toNat + length.toNat ≤ 512 ∧
      s.requestWrite offset length data =
        ({ s with setup := { s.setup with record := s.setup.record.writeAll offset.toNat data } }, answerOk [])) := by
  unfold State.requestWrite
  split
  · exact .inl ⟨_, rfl⟩
  · split
    · exact .inl ⟨_, rfl⟩
    · split
      · exact .inl ⟨_, rfl⟩
      · refine .inr ⟨by simp_all, by omega, by omega, by omega, rfl⟩

/-- SETUP_COMMIT: refused outside SETUP, else the offset of the failure left, or the record committed (R164). -/
theorem State.requestCommit_cases (s : State) (lmark lbeat : Level) :
    (s.member.state ≠ .setup ∧ s.requestCommit lmark lbeat = (s, commitAnswer .refused)) ∨
    (∃ offset, s.member.state = .setup ∧ firstFailure s.setup.record = some offset ∧
      s.requestCommit lmark lbeat =
        ({ s with setup := { s.setup with failure := BitVec.ofNat 16 offset } }, commitAnswer .badSetup)) ∨
    (s.member.state = .setup ∧ firstFailure s.setup.record = none ∧
      s.requestCommit lmark lbeat = (s.commitRecord lmark lbeat, commitAnswer .ok)) := by
  unfold State.requestCommit
  split
  · exact .inl ⟨by assumption, rfl⟩
  · split
    · exact .inr (.inl ⟨_, by simp_all, by assumption, rfl⟩)
    · exact .inr (.inr ⟨by simp_all, by assumption, rfl⟩)

end Sys2Proof.Machine
end

