-- ==== Sys2Proof/Laws/Tally.lean ====
section
/-! SUPPORT. What a zero request, a delta and a whole round can do to the replica (R1 to R3, R10 to R12). -/

namespace Sys2Proof.Machine

@[simp] theorem Replica.setValue_cs (r : Replica) (e : Entry) (value : Tally) : (r.setValue e value).cs = r.cs := rfl
@[simp] theorem Replica.setValue_csKnown (r : Replica) (e : Entry) (value : Tally) :
    (r.setValue e value).csKnown = r.csKnown := rfl
@[simp] theorem Replica.setValue_stale (r : Replica) (e : Entry) (value : Tally) :
    (r.setValue e value).stale = r.stale := rfl

@[simp] theorem Replica.setValue_same (r : Replica) (e : Entry) (value : Tally) :
    (r.setValue e value).entries[e.val] = { r.entries[e] with value := value } := by
  simp [Replica.setValue]

theorem Replica.setValue_other (r : Replica) {e other : Entry} (value : Tally) (ne : other ≠ e) :
    (r.setValue e value).entries[other] = r.entries[other] := by
  have : e.val ≠ other.val := fun h => ne (Fin.ext h.symm)
  simp [Replica.setValue, this]

@[simp] theorem Replica.setValue_known (r : Replica) (e other : Entry) (value : Tally) :
    (r.setValue e value).entries[other.val].known = r.entries[other.val].known := by
  by_cases h : other = e
  · subst h; rw [Replica.setValue_same]; rfl
  · exact congrArg Tallied.known (Replica.setValue_other r value h)

/-- Everything that a zero request can do (R2, R3, R16). -/
theorem Replica.applyZero_cases (m : Record) (listening : Bool) (r : Replica) (e : Entry) :
    (r.writes m listening e = true ∧ r.applyZero m listening e = r.setValue e (m.preset e)) ∨
    (r.writes m listening e = false ∧ r.applyZero m listening e = r) := by
  unfold Replica.applyZero
  split
  · exact .inl ⟨by assumption, rfl⟩
  · rename_i h; exact .inr ⟨by simpa using h, rfl⟩

/-- Everything that a delta can do (R2, R3, R16). -/
theorem Replica.applyDelta_cases (m : Record) (listening : Bool) (rc : Replica × Cuts) (d : Delta) :
    let result := deltaResult (m.kind d.entry) (m.ceiling d.entry) rc.1.entries[d.entry].value d.amount
    (rc.1.writes m listening d.entry = true ∧ Replica.applyDelta m listening rc d =
      (rc.1.setValue d.entry result.1, if result.2 = 0 then rc.2 else rc.2 ++ [(d.entry, result.2)])) ∨
    (rc.1.writes m listening d.entry = false ∧ Replica.applyDelta m listening rc d = rc) := by
  intro result
  unfold Replica.applyDelta
  split
  · exact .inl ⟨by assumption, rfl⟩
  · rename_i h; exact .inr ⟨by simpa using h, rfl⟩

/-- An application writes no OFF entry (R1). -/
theorem Replica.kind_of_writes {m : Record} {listening : Bool} {r : Replica} {e : Entry}
    (h : r.writes m listening e = true) : m.kind e ≠ .off := by
  simp [Replica.writes] at h; exact h.1

/-- Whatever a zero request and a delta keep, the frames of a round keep. -/
theorem Replica.applyAll_induction {P : Replica → Prop} (m : Record) (listening : Bool)
    (zero : ∀ r e, P r → P (r.applyZero m listening e))
    (delta : ∀ rc d, P rc.1 → P (Replica.applyDelta m listening rc d).1)
    (r : Replica) (round : List Business) (start : P r) : P (r.applyAll m listening round).1 := by
  have zeros : ∀ (es : List Entry) r, P r → P (es.foldl (Replica.applyZero m listening) r) := by
    intro es
    induction es with
    | nil => exact fun _ h => h
    | cons e rest ih => exact fun r h => ih _ (zero r e h)
  have deltas : ∀ (ds : List Delta) rc, P rc.1 → P (ds.foldl (Replica.applyDelta m listening) rc).1 := by
    intro ds
    induction ds with
    | nil => exact fun _ h => h
    | cons d rest ih => exact fun rc h => ih _ (delta rc d h)
  suffices ∀ rc : Replica × Cuts, P rc.1 → P (round.foldl (Replica.applyBusiness m listening) rc).1 from this (r, []) start
  induction round with
  | nil => exact fun _ h => h
  | cons b rest ih => exact fun rc h => ih _ (deltas b.deltas _ (zeros b.zeros rc.1 h))

/-- An application changes neither CS nor any flag; the increment comes after it (R12). -/
theorem Replica.applyAll_flags (m : Record) (listening : Bool) (r : Replica) (round : List Business) :
    (r.applyAll m listening round).1.cs = r.cs ∧ (r.applyAll m listening round).1.csKnown = r.csKnown ∧
    (r.applyAll m listening round).1.stale = r.stale ∧
    ∀ e : Entry, (r.applyAll m listening round).1.entries[e].known = r.entries[e].known := by
  refine Replica.applyAll_induction (P := fun x => x.cs = r.cs ∧ x.csKnown = r.csKnown ∧ x.stale = r.stale ∧
    ∀ e : Entry, x.entries[e].known = r.entries[e].known) m listening (fun x e h => ?_) (fun x d h => ?_) r round
    ⟨rfl, rfl, rfl, fun _ => rfl⟩
  · rcases x.applyZero_cases m listening e with ⟨-, eq⟩ | ⟨-, eq⟩ <;> rw [eq]
    · simpa using h
    · exact h
  · rcases Replica.applyDelta_cases m listening x d with ⟨-, eq⟩ | ⟨-, eq⟩ <;> rw [eq]
    · simpa using h
    · exact h

end Sys2Proof.Machine
end

