-- ==== Sys2Proof/Tests/Slice0.lean ====
section
/-! SUPPORT. Tests: ill-formed commands, the spec's check values and worked examples, one small step for the commands,
and, for every statement with hypotheses, a witness that meets them. -/

open Sys2Proof Sys2Proof.Machine Sys2Proof.Safety

namespace Sys2Proof.Tests

set_option Elab.async false

/-! ### Small states -/

/-- A record that SETUP_COMMIT accepts: station 1 of N = 3, entry 0 LEVEL with ceiling 400 watched at 280 and 270, entry
1 COUNT, pair P0 on entry 0, IN2 a single input counting 3 on entry 1, OUT0 a level output, OUT1 a pulse output of width
4, OUT2 LOCAL with the safe level high; M = 2, F = 3, h = 10 µs. -/
def doorRecord : Record :=
  [ (0x00, 1), (0x01, 3), (0x02, 1), (0x03, 1), (0x04, 10), (0x05, 10), (0x06, 2), (0x07, 3), (0x08, 2), (0x09, 50),
    (0x10, 0x82), (0x15, 0x01), (0x16, 0x90), (0x18, 0x01), (0x19, 0x18), (0x1B, 0x01), (0x1C, 0x0E), (0x1D, 0x01),
    (0x1B0, 2), (0x1B3, 0x01), (0x1B5, 0x81), (0x1B6, 3), (0x1BC, 1), (0x1BD, 2), (0x1BE, 1), (0x1BF, 3),
    (0x1E0, 1), (0x1E2, 1), (0x1E4, 1), (0x1E6, 5), (0x1E7, 4), (0x1E8, 2), (0x1EA, 0x80) ]

/-- A station in MEMBER in the barrier, with the record above, CS 7, entry 0 at 276 and entry 1 at 5. -/
def memberState : State := { State.reset with
  setup := { record := doorRecord, committed := true, digest := doorRecord.digest, failure := 0xFFFF, cause := .powerOn }
  replica :=
    { entries := Vector.ofFn fun e : Entry =>
        if e = 0 then { value := 276, known := true }
        else if e = 1 then { value := 5, known := true } else { value := 0, known := false }
      cs := 7, csKnown := true, stale := false }
  link := { Link.reset with state := .hold, roundTimer := some 10, holdLmark := true }
  member := { Membership.reset with state := .member }
  inputs :=
    { clock := true
      inputs := Vector.ofFn fun i : Fin 8 =>
        if i.val < 3 then { primed := true, level := .high, run := 0 } else { primed := false, level := .low, run := 0 } }
  outputs := Vector.ofFn fun o : Fin 8 =>
    if o = 2 then { level := .high, pulse := none, latch := some .high }
    else { level := .low, pulse := none, latch := none } }

/-- The member with another station state. -/
def inState (state : StationState) : State := { memberState with member := { memberState.member with state := state } }

/-- A state whose next sampling edge completes a request. -/
def asking (s : State) (code : Byte) (operands : List Byte) : State :=
  { s with tap := { s.tap with
      tsel := .low, bits := 7, shiftIn := (operands.getLast?.getD code) >>> 1
      state := if operands = [] then .request else .operands
      code := if operands = [] then none else some code
      operands := operands.dropLast } }

/-- A frame of station 1 with one delta. -/
def aFrame : Frame :=
  { station := 1, cs := 7, digest := doorRecord.digest, check := 0, join := false, freeze := true, leave := false
    zeros := [0], deltas := [{ entry := 1, amount := 5 }], carryIndex := 0, carryValue := 276, frameCheck := 0 }

/-- The member in slot `slot` of a round, with LBEAT low and released, transmitting or not. -/
def inSlot (transmits : Bool) (slot bit : Nat) : State := { memberState with
  link := { Link.reset with state := .slots, slot := slot, bit := bit, lbeat := .low }
  frame := { FrameUnit.reset with sending := if transmits then some aFrame else none } }

/-- The station in a state at the last verdict edge, its own slot 1 and slot 0 present or not. -/
def closing (state : StationState) (transmits : Bool) (presence : List Bool) (verdicts : List Level)
    (results : List SlotResult) : State := { inState state with
  link := { Link.reset with state := .verdict, lbeat := .low, presence := presence, verdicts := verdicts }
  frame := { FrameUnit.reset with sending := if transmits then some aFrame else none, results := results } }

/-- The next state of a command, when there is one. -/
def after (c : Instr) (s : State) : Option State :=
  match exec c s with
  | .next t => some t
  | .fault _ => none
  | .refused _ => none

/-- The next state of a step, when there is one. -/
def stepped (s : State) : Option State :=
  match step s with
  | .next t => some t
  | .fault _ => none
  | .refused _ => none

/-! ### Well-formedness -/

theorem test_wf_unknown_refuses_known_code : (Instr.unknown 0x05).wellFormed = false := by decide
theorem test_wf_unknown_accepts_00H : (Instr.unknown 0x00).wellFormed = true := by decide
theorem test_wf_write_refuses_short_data : (Instr.setupWrite 0 2 [0x55]).wellFormed = false := by decide
theorem test_wf_write_refuses_data_after_length_0 : (Instr.setupWrite 0 0 [0x55]).wellFormed = false := by decide
theorem test_wf_write_accepts_no_data_above_32 : (Instr.setupWrite 0 33 []).wellFormed = true := by decide
theorem test_wf_sample_refuses_input_twice : (Instr.sampleInstant 0 [1, 1]).wellFormed = false := by decide
theorem test_no_word_spells_a_command : decodeTableWord 8 0x05 = none := by decide

/-! ### Check values and worked examples of the spec -/

/-- R8: the nine bytes 31H to 39H give 29B1H. -/
theorem test_crc16_check_value :
    crc16 (([0x31, 0x32, 0x33, 0x34, 0x35, 0x36, 0x37, 0x38, 0x39] : List Byte).flatMap bitsOf) = 0x29B1 := by
  decide +kernel

/-- R48: the nine bytes 31H to 39H give F4H. -/
theorem test_crc8_check_value :
    crc8 (([0x31, 0x32, 0x33, 0x34, 0x35, 0x36, 0x37, 0x38, 0x39] : List Byte).flatMap bitsOf) = 0xF4 := by
  decide +kernel

/-- R2: +9 to 16,777,210 gives 3. -/
theorem test_count_wraps_up : deltaResult .count 0 16777210 9 = (3, 0) := by decide
/-- R2: -5 to 2 gives 16,777,213. -/
theorem test_count_wraps_down : deltaResult .count 0 2 (BitVec.ofInt 12 (-5)) = (16777213, 0) := by decide
/-- Chapter 1: ceiling 500, value 498, +4 gives 500 and cuts 2. -/
theorem test_level_clamps : deltaResult .level 500 498 4 = (500, 2) := by decide
/-- Chapter 1: then -3 gives 497. -/
theorem test_level_falls : deltaResult .level 500 500 (BitVec.ofInt 12 (-3)) = (497, 0) := by decide

/-- Chapter 9: with 15 records the notice posted next becomes an OVERFLOW record of value 1. -/
theorem test_overflow_is_the_16th :
    (postTo (List.replicate 15 (linkNotice .linkStalled none)) (linkNotice .linkResumed none)).getLast? =
      some (overflowRecord 1) := by decide
/-- Chapter 9: 4 counted, 3 reported, 1 remains. -/
theorem test_overflow_keeps_the_rest : deliver [overflowRecord 4] (overflowRecord 3) = [overflowRecord 1] := by decide

/-- Table 12-6 and the layout of the notice record. -/
theorem test_notice_bytes :
    (stateChangedNotice (some 0x1388) .joined .joining .member).bytes = [0x01, 0x07, 0x13, 0x88, 0x04, 0x00, 0x02, 0x03] := by
  decide

/-- Table 7-5: a forward crossing from B2_FWD when both inputs change at once, A taken first, is not counted. -/
theorem test_b2fwd_a_first :
    (Detector.take none { state := .b2Fwd, markA := false, markB := true, timer := none } .aBlocks).1.state = .abFwd := by
  decide

/-- R114 and R116: a whole forward crossing counts at its last step alone. -/
theorem test_forward_crossing :
    ([PairChange.aBlocks, .bBlocks, .aClears, .bClears].foldl
      (fun (x : Detector × List Passage) c => ((x.1.take none c).1, x.2 ++ [(x.1.take none c).2]))
      (Detector.reset, [])) = (Detector.reset, [.none, .none, .none, .forward]) := by decide

/-- R35: the slot length from the counts as sampled, at its two ends. -/
theorem test_slot_length_ends :
    slotLengthRead (List.replicate 54 false) = some 99 ∧ slotLengthRead (List.replicate 69 true) = some 369 ∧
      slotLengthRead (List.replicate 53 false) = none := by decide

/-- The record of these tests passes the checks; with the high level of entry 0 above its ceiling it fails at 17H. -/
theorem test_door_record_accepted : firstFailure doorRecord = none := by decide +kernel
theorem test_high_above_ceiling_fails : firstFailure (doorRecord.write 0x18 0x02) = some 0x17 := by decide +kernel
/-- R166: a record whose entries are all OFF fails at the kind byte of the last entry. -/
theorem test_all_off_fails :
    firstFailure [(0x01, 2), (0x04, 1), (0x05, 1), (0x06, 2), (0x07, 3)] = some (0x10 + 13 * 31) := by decide +kernel
/-- R167: PAIR_A on IN0 without PAIR_B on IN1 fails at IN1's mode byte. -/
theorem test_half_pair_fails : firstFailure (doorRecord.write 0x1B6 0) = some 0x1B6 := by decide +kernel

/-! ### One small step for the commands -/

theorem test_power_on_clears_record : (after .powerOnReset memberState).map (·.setup.record) = some [] := by
  decide +kernel
theorem test_pin_keeps_record_and_safe_level :
    (after .resetPinFall memberState).map (fun t => (t.setup.record == doorRecord, t.outputs[2].level, t.member.state)) =
      some (true, .high, .setup) := by decide +kernel
theorem test_reset_end_records_pin :
    (after (.resetEnd .high .low) { State.reset with resetting := some .pin }).map (·.setup.cause) = some .pin := by
  decide +kernel
/-- Chapter 10: MEMBER and POWER_ON read 03H in the status byte. -/
theorem test_tsel_fall_forms_status :
    (after (.tselFall { elapsed := 0, tclk := .low }) memberState).map (fun t => (t.tap.state, t.tap.shiftOut)) = some (.request, 0x03) := by
  decide +kernel
theorem test_tsel_fall_too_soon_is_shut :
    (after (.tselFall { elapsed := 1999, tclk := .low }) { State.reset with tap := { State.reset.tap with deselect := 0 } }).map (·.tap.state) =
      some .shut := by decide +kernel
theorem test_tsel_rise_releases_tdo :
    (after .tselRise (asking memberState 0x02 [0])).map (fun t => (t.tap.state, t.tap.tdo)) = some (.idle, .highZ) := by
  decide +kernel
theorem test_unknown_code_00H :
    ((after (.unknown 0x00) (asking State.reset 0x00 [])).bind (·.tap.answer)).map (·.bytes) = some [0x87] := by
  decide +kernel
theorem test_status_reply :
    ((after .status (asking memberState 0x01 [])).bind (·.tap.answer)).map (·.bytes) =
      some [0x80, 0x03, 0, 0, 1, 3] := by decide +kernel
/-- Chapter 8: 276 is below H = 280, so the watch reads BELOW. -/
theorem test_read_entry_reply :
    ((after (.readEntry 0) (asking memberState 0x02 [0])).bind (·.tap.answer)).map (·.bytes) =
      some [0x80, 0x00, 0x01, 0x14, 0x05] := by decide +kernel
theorem test_read_entry_32_bad_operand :
    ((after (.readEntry 32) (asking memberState 0x02 [32])).bind (·.tap.answer)).map (·.result) = some .badOperand := by
  decide +kernel
theorem test_read_outbox_reply :
    ((after (.readOutbox 0) (asking { memberState with outbox := { memberState.outbox with
        pending := memberState.outbox.pending.set 0 (-2), zeroList := [0], leave := true } } 0x03 [0])).bind
      (·.tap.answer)).map (·.bytes) = some [0x80, 0xFF, 0xFE, 0, 0, 0x42] := by decide +kernel
/-- Table 12-4: slot 0 stands in the top bits of the first roster byte. -/
theorem test_read_roster_reply :
    ((after .readRoster (asking { memberState with member := { memberState.member with
        roster := (memberState.member.roster.set 0 .present).set 1 .self } } 0x04 [])).bind
      (·.tap.answer)).map (·.bytes) = some [0x80, 3, 0x60, 0, 0, 0, 0, 0, 0, 7, 1] := by decide +kernel
theorem test_take_notice_keeps_record :
    (after .takeNotice (asking { memberState with notices := [linkNotice .linkStalled (some 7)] } 0x05 [])).map
      (fun t => (t.notices.length, t.tap.answer.map (·.bytes))) =
      some (1, some [0x80, 0x08, 0x01, 0x00, 0x07, 0, 0, 0, 0]) := by decide +kernel
theorem test_read_snapshot_end_of_range :
    ((after (.readSnapshot 31 2) (asking memberState 0x06 [31, 2])).bind (·.tap.answer)).map (·.result) =
      some .badOperand := by decide +kernel
theorem test_release_empty_queue :
    ((after .releaseSnapshot (asking memberState 0x07 [])).bind (·.tap.answer)).map (·.result) = some .empty := by
  decide +kernel
theorem test_freeze_sets_flag :
    (after .freeze (asking memberState 0x10 [])).map (·.outbox.freeze) = some true := by decide +kernel
theorem test_freeze_refused_in_joining :
    ((after .freeze (asking (inState .joining) 0x10 [])).bind (·.tap.answer)).map (·.result) = some .refused := by
  decide +kernel
theorem test_zero_joins_tail :
    (after (.zero 1) (asking { memberState with outbox := { memberState.outbox with zeroList := [0] } } 0x11 [1])).map
      (·.outbox.zeroList) = some [0, 1] := by decide +kernel
theorem test_zero_already_in_flight :
    ((after (.zero 1) (asking { memberState with outbox := { memberState.outbox with flightZeros := [1] } } 0x11 [1])).bind
      (·.tap.answer)).map (·.result) = some .already := by decide +kernel
theorem test_adjust_saturates :
    (after (.adjust 0 3) (asking { memberState with outbox := { memberState.outbox with
        pending := memberState.outbox.pending.set 0 32766 } } 0x12 [0, 0, 3])).map
      (fun t => (t.outbox.pending[0], t.outbox.saturated[0], t.notices.map (·.value))) =
      some (32767, true, [some 2]) := by decide +kernel
theorem test_adjust_2048_bad_operand :
    ((after (.adjust 0 0x0800) (asking memberState 0x12 [0, 8, 0])).bind (·.tap.answer)).map (·.result) =
      some .badOperand := by decide +kernel
theorem test_set_output_drives_pin :
    (after (.setOutput 2 0) (asking memberState 0x13 [2, 0])).map (fun t => (t.outputs[2].level, t.outputs[2].latch)) =
      some (.low, some .low) := by decide +kernel
theorem test_leave_sets_flag :
    (after .leave (asking memberState 0x14 [])).map (·.outbox.leave) = some true := by decide +kernel
theorem test_rejoin_listens :
    (after (.rejoin .high .high) (asking (inState .parked) 0x15 [])).map
      (fun t => (t.member.state, t.link.state, t.link.roundTimer, t.replica.cs)) =
      some (.listen, .sync, some 40, 0) := by decide +kernel
theorem test_setup_write_last_byte :
    (after (.setupWrite 0x1FF 1 [7]) (asking State.reset 0x20 [1, 0xFF, 1, 7])).map (·.setup.record.read 0x1FF) =
      some 7 := by decide +kernel
theorem test_setup_write_past_end :
    ((after (.setupWrite 0x1FF 2 [7, 7]) (asking State.reset 0x20 [1, 0xFF, 2, 7, 7])).bind
      (·.tap.answer)).map (·.result) = some .badOperand := by decide +kernel
theorem test_setup_read_failure_offset :
    ((after (.setupRead 0x1FF 3) (asking State.reset 0x21 [1, 0xFF, 3])).bind (·.tap.answer)).map (·.bytes) =
      some [0x80, 0x00, 0xFF, 0xFF] := by decide +kernel
theorem test_setup_commit_all_zeros_fails_at_N :
    (after (.setupCommit .high .high) (asking State.reset 0x22 [])).map (fun t => (t.setup.failure, t.member.state)) =
      some (0x0001, .setup) := by decide +kernel
theorem test_setup_commit_listens :
    (after (.setupCommit .low .high) (asking { State.reset with
        setup := { State.reset.setup with record := doorRecord } } 0x22 [])).map
      (fun t => (t.member.state, t.link.state, t.inputs.clock, t.outputs[2].level)) =
      some (.listen, .hold, true, .high) := by decide +kernel
theorem test_quiet_time_ends_in_hold :
    (after .quietTimerExpiry { inState .listen with
        link := { Link.reset with state := .sync, roundTimer := some 40 } }).map
      (fun t => (t.link.state, t.link.holdLmark)) = some (.hold, true) := by decide +kernel
theorem test_sync_edge_restarts_quiet_time :
    (after .syncLbeatChange { inState .listen with
        link := { Link.reset with state := .sync, roundTimer := some 40 } }).map (·.link.lbeat) = some .low := by
  decide +kernel
theorem test_sync_fall_joins_barrier :
    (after .syncLmarkFall { inState .listen with link := { Link.reset with state := .sync } }).map (·.link.roundTimer) =
      some (some 10) := by decide +kernel
/-- Chapter 4: a pending amount of 2,050 sends 2,047 and keeps 3. -/
theorem test_composition_splits_amount :
    (after .roundTimerExpiry { memberState with outbox := { memberState.outbox with
        pending := memberState.outbox.pending.set 0 2050 } }).map
      (fun t => (t.outbox.flightDeltas, t.outbox.pending[0], t.outbox.cursor, t.link.state)) =
      some ([{ entry := 0, amount := 2047 }], 3, 1, .wait) := by decide +kernel
theorem test_stall_posts_once :
    (after .stallTimerExpiry { memberState with
        link := { Link.reset with state := .wait, stallTimer := some 100 } }).map
      (fun t => (t.link.stalled, t.link.stallTimer, t.notices.map (·.kind))) =
      some (true, none, [.linkStalled]) := by decide +kernel
theorem test_lmark_rise_resumes :
    (after .waitLmarkRise { memberState with link := { Link.reset with state := .wait, stalled := true } }).map
      (fun t => (t.link.state, t.link.stalled, t.notices.map (·.kind))) = some (.slots, false, [.linkResumed]) := by
  decide +kernel
theorem test_half_period_holds_lbeat :
    (after .lbeatHalfPeriodExpiry { memberState with
        link := { Link.reset with state := .slots, half := .beforeHold } }).map (·.link.holdLbeat) = some true := by
  decide +kernel
/-- R36: in its own slot the station holds LDATA for the presence bit. -/
theorem test_fall_holds_presence_bit :
    (after .lbeatFall { inSlot true 1 0 with
        link := { (inSlot true 1 0).link with lbeat := .high } }).map (·.link.holdLdata) = some true := by decide +kernel
theorem test_silent_slot_is_one_bit :
    (after (.lbeatRise .high) (inSlot true 0 0)).map (fun t => (t.link.slot, t.link.presence, t.frame.results)) =
      some (1, [false], [.silent]) := by decide +kernel
theorem test_first_collision_objects :
    (after (.ownFrameSent .low) (inSlot true 1 4)).map
      (fun t => (t.frame.object, t.frame.strike, t.notices.map (·.value))) = some (true, true, [some 5]) := by
  decide +kernel
theorem test_second_collision_faults :
    (after (.ownFrameSent .low) { inSlot true 1 4 with
        frame := { (inSlot true 1 4).frame with strike := true } }).map
      (fun t => (t.member.state, t.link.state, t.notices.map (·.kind))) =
      some (.fault, .off, [.collision, .stateChanged]) := by decide +kernel
/-- R43: counts read as 3 and 15 make a slot of 369 bits, and a frame cut short is INVALID. -/
theorem test_cut_frame_is_invalid :
    (after (.frameReceived .high) { inSlot true 0 368 with
        link := { (inSlot true 0 368).link with slotLength := some 369 }
        frame := { (inSlot true 0 368).frame with receiving := .low :: List.replicate 367 .high } }).map
      (fun t => (t.frame.results, t.frame.object, t.link.slot)) = some ([.invalid], true, 1) := by decide +kernel
theorem test_close_commits_round :
    (after (.roundClose .high []) { closing .member true [false, true, false] [.high, .high]
        [.silent, .own false, .silent] with
        outbox := { Outbox.empty with flightDeltas := [{ entry := 0, amount := 5 }] } }).map
      (fun t => (t.replica.entries[0].value, t.replica.cs, t.watches[0], t.outputs[0].level, t.outbox.flightEmpty)) =
      some (281, 8, .above, .high, true) := by decide +kernel
theorem test_close_vetoes_round :
    (after (.roundClose .high []) { closing .member true [false, true, false] [.high, .low]
        [.silent, .own false, .silent] with
        outbox := { Outbox.empty with flightDeltas := [{ entry := 0, amount := 5 }] } }).map
      (fun t => (t.replica.cs, t.outbox.pending[0], t.notices.map (·.kind))) = some (7, 5, [.roundVetoed]) := by
  decide +kernel
theorem test_abort_reports_bit_count :
    (after (.lmarkFallInRound []) { memberState with
        link := { Link.reset with state := .verdict, bitCount := 300 } }).map
      (fun t => (t.link.state, t.notices.map (·.value))) = some (.hold, [some 300]) := by decide +kernel
theorem test_beat_stuck_aborts :
    (after (.beatStuckExpiry []) { memberState with
        link := { Link.reset with state := .slots, stuckTimer := some 1280 } }).map
      (fun t => (t.link.holdLmark, t.notices.map (·.kind))) = some (true, [.roundAborted]) := by decide +kernel
theorem test_sample_counts_single_edge :
    (after (.sampleInstant 0x03 []) memberState).map (fun t => (t.outbox.pending[1], t.inputs.inputs[2].level)) =
      some (3, .low) := by decide +kernel
/-- R120: the marks keep the levels of the state left. -/
theorem test_passage_limit_sticks :
    (after (.passageTimerExpiry 0) { memberState with
        detectors := memberState.detectors.set 0 ({ state := .b2Fwd, markA := false, markB := true, timer := some 100 }) }).map
      (fun t => (t.detectors[0], t.notices.map (·.subject))) =
      some ({ state := .stuck, markA := false, markB := true, timer := none }, [some 0]) := by decide +kernel
theorem test_pulse_ends :
    (after (.pulseTimerExpiry 1) { memberState with
        outputs := memberState.outputs.set 1 ({ level := .high, pulse := some 4, latch := none }) }).map (fun t => (t.outputs[1].level, t.outputs[1].pulse)) =
      some (.low, none) := by decide +kernel
/-- The station after TSEL falls with TCLK at a level, in a clock format, with status byte 83H. -/
def fallen (fmt1 fmt0 tclk : Level) : State :=
  (after (.tselFall { elapsed := 0, tclk := tclk })
    { inState .member with
      setup := { memberState.setup with cause := .pin }, tap := Tap.reset .high fmt1 fmt0 }).getD State.reset
/-- Table 10-2: with FMT0 low the first bit stands on TDO at the TSEL fall; with FMT0 high the first shifting edge places
it, and none is due yet when TCLK is off its rest level. -/
theorem test_first_bit_of_status :
    ((fallen .low .low .low).tap.tdo, (fallen .low .high .low).tap.tdo, (fallen .low .high .low).idle.tap.tdo,
      (fallen .low .high .high).idle.tap.tdo) = (.bit .high, .notPlaced, .bit .high, .notPlaced) := by decide +kernel
/-- Table 10-2: after six sampling edges of 83H the shifting edge places the seventh bit; where the first bit came late,
it places the sixth. -/
theorem test_shifting_edge_places_next_bit :
    (({ (fallen .low .low .low).tap with bits := 6, placed := 5 } : Tap).shiftEdge.tdo,
      ({ (fallen .low .high .low).tap with bits := 6, placed := 6 } : Tap).shiftEdge.tdo,
      ({ (fallen .low .high .high).tap with bits := 6, placed := 5 } : Tap).shiftEdge.tdo) =
      (.bit .high, .bit .high, .bit .low) := by decide +kernel
/-- Table 10-2: with both straps high TDI is sampled on the rising edge and TCLK rests high, so a shifting edge comes
first; with FMT1 alone high TDI is sampled on the falling edge, and none does. -/
theorem test_fmt1_chooses_edges :
    ((fallen .high .high .high).tap.shiftDue, (fallen .high .low .high).tap.shiftDue,
      (fallen .low .high .low).tap.shiftDue, (fallen .low .low .low).tap.shiftDue) = (true, false, true, false) := by
  decide +kernel
/-- R146: TDI is taken at every sampling edge of a transaction, in ANSWER too. -/
theorem test_edge_takes_bit :
    ((after (.tclkSamplingEdge .high 500) { State.reset with
        tap := { State.reset.tap with state := .request, shiftIn := 0x01 } }).map (fun t => (t.tap.shiftIn, t.tap.bits)),
      ((after .status (asking memberState 0x01 [])).bind (after (.tclkSamplingEdge .high 9000))).map
        (fun t => (t.tap.shiftIn, t.tap.bits))) = (some (0x03, 1), some (0x01, 1)) := by decide +kernel
/-- R58 and R136: FREEZE of a valid frame counts whatever its digest. -/
theorem test_foreign_freeze_counts :
    freezeRequesters [.valid aFrame true, .own false, .valid aFrame false] true [true, false, true] = [0, 2] := by
  decide +kernel
/-- R159: the first edge of the result byte 7,999 ns after the effect is early, at 8,000 ns it is not. -/
theorem test_answer_clocked_early :
    (((after .status (asking memberState 0x01 [])).bind (after (.tclkSamplingEdge .low 7999))).map (·.tap.shiftOut),
      ((after .status (asking memberState 0x01 [])).bind (after (.tclkSamplingEdge .low 8000))).map (·.tap.shiftOut)) =
      (some 0xFF, some 0x80) := by decide +kernel
/-- The tap while the last reply byte of a TAKE_NOTICE is being shifted out. -/
def delivering (early : Bool) : State := { memberState with
  notices := [linkNotice .linkStalled none]
  tap := { Tap.reset .low .low .low with
    state := .answer, bits := 7, sent := 8, early := early
    answer := some { quickly .ok (List.replicate 8 0) with delivers := some (linkNotice .linkStalled none) } } }
theorem test_delivery_removes_record : (after .takeNoticeDelivered (delivering false)).map (·.notices) = some [] := by
  decide +kernel

/-! ### Witnesses: states and operands that meet the hypotheses of each statement, clause by clause -/

theorem witness_StepTakesFrontCommand :
    State.reset.pending = [] ∧ State.reset.tap.shiftDue = false ∧
    (fallen .low .high .low).pending = [] ∧ (fallen .low .high .low).tap.shiftDue = true := by decide +kernel

/-- A reset in progress. -/
def inReset (kind : ResetKind) : State := { State.reset with resetting := some kind }

theorem witness_ResetsReturnEveryBlock :
    memberState.resetting = none ∧ (inReset .powerOn).resetting ≠ none ∧ (inReset .pin).resetting = some .pin := by
  decide +kernel

/-- TSEL high with a deselect time. -/
def deselected (s : State) (time : Nat) : State := { s with tap := { s.tap with deselect := time } }

theorem witness_TselFramesTransactions :
    (deselected memberState 1).tap.tsel = .high ∧ memberState.resetting = none ∧
    2000 ≤ (deselected memberState 1).tap.deselect + 1999 ∧ (deselected memberState 1).tap.deselect + 1998 < 2000 ∧
    (inReset .pin).tap.tsel = .high ∧ (inReset .pin).resetting ≠ none ∧
    (asking memberState 0x01 []).tap.tsel = .low ∧ (asking memberState 0x01 []).resetting = none ∧
    (asking (inReset .pin) 0x01 []).tap.tsel = .low ∧ (asking (inReset .pin) 0x01 []).resetting ≠ none := by
  decide +kernel

/-- The member with the tap in a state, a bit count and an answer of which some bytes have been shifted out. -/
def tapIn (state : TapState) (bits sent : Nat) (answer : Option Answer) : State := { memberState with
  tap := { Tap.reset .low .low .low with
    state := state, bits := bits, sent := sent, answer := answer, shiftOut := 0x80, tclk := .high } }

theorem witness_SamplingEdgeTakesOneBit :
    (tapIn .idle 0 0 none).tap.state = .idle ∧ (tapIn .shut 0 0 none).tap.state = .shut ∧
    (tapIn .request 6 0 none).tap.state = .request ∧ (tapIn .request 6 0 none).tap.bits < 7 ∧
    (tapIn .operands 0 0 none).tap.state = .operands ∧ (tapIn .operands 0 0 none).tap.bits < 7 ∧
    (tapIn .trailing 6 1 none).tap.state = .trailing ∧ (tapIn .trailing 6 1 none).tap.bits < 7 ∧
    (tapIn .answer 6 1 (some (quickly .ok [1]))).tap.state = .answer ∧
    (tapIn .answer 6 1 (some (quickly .ok [1]))).tap.answer = some (quickly .ok [1]) ∧
    0 < (tapIn .answer 6 1 (some (quickly .ok [1]))).tap.sent ∧
    (tapIn .answer 0 0 (some (quickly .ok [1]))).tap.sent = 0 ∧ 7999 < (quickly .ok [1]).wait ∧
    (quickly .ok [1]).wait ≤ 8000 ∧ 7 ≤ (tapIn .trailing 7 1 none).tap.bits ∧
    (tapIn .request 6 0 none).tap.shiftDue = true ∧ State.reset.tap.shiftDue = false ∧
    7 ≤ (tapIn .request 7 0 none).tap.bits ∧ (0x02 : Byte) ∈ ([0x02, 0x03, 0x06, 0x11, 0x12, 0x13, 0x20, 0x21] : List Byte) ∧
    (asking State.reset 0x03 [0]).tap.state = .operands ∧ (asking State.reset 0x03 [0]).tap.code = some 0x03 ∧
    7 ≤ (asking State.reset 0x03 [0]).tap.bits ∧ operandBytes 0x03 [0] ≤ ([0] : List Byte).length ∧
    ¬operandBytes 0x20 [0, 0] ≤ ([0, 0] : List Byte).length ∧
    (∀ sent, sent < 2 → (tapIn .answer 7 sent (some (quickly .ok [1]))).tap.bits = 7 ∧
      (tapIn .answer 7 sent (some (quickly .ok [1]))).tap.answer = some (quickly .ok [1])) := by decide +kernel

/-- R150 and R151 at the edges that end a byte: the code of READ_ENTRY enters OPERANDS, and a byte of a notice that is not
its last brings the next. -/
theorem test_byte_ends :
    ((after (.tclkSamplingEdge .low 500) (tapIn .request 7 0 none)).map (·.tap.state),
      (after (.tclkSamplingEdge .low 500)
        { State.reset with tap := { (tapIn .request 7 0 none).tap with shiftIn := 0x01 } }).map (·.tap.state),
      (after (.tclkSamplingEdge .low 500) (tapIn .answer 7 0 (some { quickly .ok [5, 6] with
        delivers := some (overflowRecord 1) }))).map fun t => (t.tap.shiftOut, t.tap.sent)) =
      (some .request, some .operands, some (5, 1)) := by decide +kernel

theorem witness_ClockedBytesReachRequest :
    (tapIn .request 0 0 none).tap.state = .request ∧ (tapIn .request 0 0 none).tap.bits = 0 ∧
    Request.operandCount .status [] = 0 ∧ Request.operandCount .setupWrite [0, 0, 0] = 3 ∧
    Request.operandCount .setupWrite [0, 0, 33] = 3 ∧
    Request.operandCount .setupWrite (0 :: 0 :: 32 :: List.replicate 32 0) = 35 ∧ requestOf 0xFF = none := by
  decide +kernel

theorem witness_AnswerLeavesBitByBit :
    (tapIn .answer 0 0 (some (quickly .ok [1]))).tap.answer = some (quickly .ok [1]) ∧
    (quickly .ok [1]).delivers = none ∧ 7999 < (quickly .ok [1]).wait ∧
    ([true] : List Bool).length < 8 * (quickly .ok [1]).bytes.length ∧ (tapIn .answer 0 0 (some (quickly .ok [1]))).tap.bits = 0 ∧
    (tapIn .answer 0 0 (some (quickly .ok [1]))).tap.sent = 0 ∧
    (tapIn .answer 0 0 (some (quickly .ok [1]))).tap.early = false ∧
    (tapIn .answer 0 0 (some (quickly .ok [1]))).tap.shiftOut = (quickly .ok [1]).result.code ∧
    (tapIn .answer 0 0 (some (quickly .ok [1]))).tap.placed = 0 ∧
    (tapIn .answer 0 0 (some (quickly .ok [1]))).tap.tclk = .high ∧
    (tapIn .answer 0 0 (some (quickly .ok [1]))).tap.fmt1 = (tapIn .answer 0 0 (some (quickly .ok [1]))).tap.fmt0 := by
  decide +kernel

theorem witness_StatusAndRosterReplies :
    (asking memberState 0x01 []).tap.completes 0x01 [] = true ∧
    (asking memberState 0x04 []).tap.completes 0x04 [] = true := by decide +kernel

theorem reset_SetupWf : SetupWf State.reset := by
  refine ⟨by decide, by decide, fun committed => ?_, by decide, by decide, by decide⟩
  exact absurd committed (by decide)

theorem witness_EntryAndOutboxReplies_setup : SetupWf State.reset ∧ State.reset.member.state = .setup ∧
    (asking State.reset 0x02 [0]).tap.completes 0x02 [0] = true := ⟨reset_SetupWf, by decide, by decide +kernel⟩

theorem witness_EntryAndOutboxReplies :
    (asking memberState 0x02 [32]).tap.completes 0x02 [32] = true ∧ 31 < (32 : Byte).toNat ∧
    (asking memberState 0x02 [31]).tap.completes 0x02 [31] = true ∧ (31 : Entry).val = (31 : Byte).toNat ∧
    (asking memberState 0x03 [32]).tap.completes 0x03 [32] = true ∧
    (asking memberState 0x03 [0]).tap.completes 0x03 [0] = true ∧
    memberState.settings.kind 31 = .off ∧ memberState.settings.kind 0 ≠ .off ∧
    (∀ d ∈ memberState.outbox.flightDeltas, d.entry ≠ 0) ∧
    ((⟨1, 5⟩ : Delta) ∈ aFrame.deltas ∧ (aFrame.deltas.map fun d => d.entry).Nodup) := by decide +kernel

theorem witness_TakeNoticeDeliversOldest :
    (asking memberState 0x05 []).tap.completes 0x05 [] = true ∧ memberState.notices = [] ∧
    (delivering false).notices = [linkNotice .linkStalled none] ∧
    (linkNotice .linkStalled none).isOverflow = false ∧
    (delivering true).tap.state = .answer ∧ (delivering true).tap.early = true ∧ (delivering true).tap.bits = 7 ∧
    ((delivering true).tap.answer.map fun a => (a.delivers, a.bytes.length)) =
      some (some (linkNotice .linkStalled none), (delivering true).tap.sent + 1) ∧
    (delivering false).tap.early = false ∧ (4 : Tally) ≠ 3 ∧
    ({ delivering false with notices := [overflowRecord 4] } : State).notices = [overflowRecord 4] := by decide +kernel

/-- A snapshot record. -/
def aSnapshot : Snapshot := { cs := 7, requesters := 2, values := Vector.replicate 32 0 }

theorem witness_ReadSnapshotReply :
    (asking memberState 0x06 [31, 2]).tap.completes 0x06 [31, 2] = true ∧ 32 < (31 : Byte).toNat + (2 : Byte).toNat ∧
    (asking memberState 0x06 [31, 1]).tap.completes 0x06 [31, 1] = true ∧ 1 ≤ (1 : Byte).toNat ∧
    (31 : Byte).toNat + (1 : Byte).toNat ≤ 32 ∧ memberState.snapshots = [] ∧
    (asking { memberState with snapshots := [aSnapshot] } 0x06 [0, 32]).tap.completes 0x06 [0, 32] = true ∧
    ({ memberState with snapshots := [aSnapshot] } : State).snapshots = [aSnapshot] ∧
    (0 : Nat) < (1 : Byte).toNat ∧ (31 : Entry).val = (31 : Byte).toNat + 0 := by decide +kernel

theorem witness_ReleaseSnapshotRemovesOldest :
    (asking memberState 0x07 []).tap.completes 0x07 [] = true ∧ memberState.snapshots = [] ∧
    (asking { memberState with snapshots := [aSnapshot] } 0x07 []).snapshots = [aSnapshot] := by decide +kernel

theorem witness_RefusedAndUnknownRequests :
    memberState.member.state ≠ .setup ∧
    (asking memberState 0x20 [0, 0, 33]).tap.completes 0x20 (bytesOfHalf 0 ++ 33 :: []) = true ∧
    ([] : List Byte).length = setupWriteData 33 ∧ (asking memberState 0x22 []).tap.completes 0x22 [] = true ∧
    State.reset.member.state = .setup ∧
    (asking State.reset 0x12 [0, 0, 1]).tap.completes 0x12 (0 :: bytesOfHalf 1) = true ∧
    (asking State.reset 0x13 [8, 2]).tap.completes 0x13 [8, 2] = true ∧
    (inState .joining).member.state ≠ .member ∧ (asking (inState .joining) 0x10 []).tap.completes 0x10 [] = true ∧
    (asking (inState .joining) 0x11 [32]).tap.completes 0x11 [32] = true ∧
    (asking (inState .joining) 0x14 []).tap.completes 0x14 [] = true ∧
    (inState .fault).member.state ≠ .parked ∧ (inState .fault).member.state ≠ .incompatible ∧
    (asking (inState .fault) 0x15 []).tap.completes 0x15 [] = true ∧
    (0x00 : Byte) ∉ knownRequestCodes ∧ (asking State.reset 0x00 []).tap.completes 0x00 [] = true := by decide +kernel

theorem witness_MemberRequestsSetOutbox :
    memberState.member.state = .member ∧ (asking memberState 0x10 []).tap.completes 0x10 [] = true ∧
    (asking memberState 0x14 []).tap.completes 0x14 [] = true ∧
    (asking memberState 0x11 [32]).tap.completes 0x11 [32] = true ∧ 31 < (32 : Byte).toNat ∧
    (asking memberState 0x11 [31]).tap.completes 0x11 [31] = true ∧ (31 : Entry).val = (31 : Byte).toNat := by
  decide +kernel

theorem witness_AdjustAddsToPending :
    (asking (inState .setup) 0x12 [0, 0, 1]).member.state = .setup ∧
    (asking (inState .setup) 0x12 [0, 0, 1]).tap.completes 0x12 (0 :: bytesOfHalf 1) = true ∧
    (inState .fault).member.state ≠ .setup ∧
    (asking memberState 0x12 [32, 0, 0]).tap.completes 0x12 (32 :: bytesOfHalf 0) = true ∧ 31 < (32 : Byte).toNat ∧
    (asking memberState 0x12 [0, 8, 0]).tap.completes 0x12 (0 :: bytesOfHalf 0x0800) = true ∧
    2047 < (0x0800 : Half).toInt ∧ (0xF800 : Half).toInt < -2047 ∧ memberState.settings.kind 31 = .off ∧
    (asking memberState 0x12 [0, 7, 0xFF]).tap.completes 0x12 (0 :: bytesOfHalf 0x07FF) = true ∧
    memberState.settings.kind 0 ≠ .off ∧ -2047 ≤ (0xF801 : Half).toInt ∧ (0x07FF : Half).toInt ≤ 2047 := by
  decide +kernel

theorem witness_SetOutputWritesLatch :
    memberState.member.state ≠ .setup ∧ (asking memberState 0x13 [8, 0]).tap.completes 0x13 [8, 0] = true ∧
    7 < (8 : Byte).toNat ∧ (asking memberState 0x13 [7, 2]).tap.completes 0x13 [7, 2] = true ∧
    (2 : Byte) ≠ 0x00 ∧ (2 : Byte) ≠ 0x01 ∧ (asking memberState 0x13 [2, 1]).tap.completes 0x13 [2, 1] = true ∧
    (2 : Fin 8).val = (2 : Byte).toNat ∧ (1 : Byte) = (BitVec.ofBool true).setWidth 8 ∧
    (0 : Byte) = (BitVec.ofBool false).setWidth 8 ∧ memberState.settings.outputSource 0 ≠ .local ∧
    memberState.settings.outputSource 2 = .local := by decide +kernel

theorem witness_RejoinListensAnew :
    (asking (inState .parked) 0x15 []).tap.completes 0x15 [] = true ∧ (inState .parked).member.state = .parked ∧
    (asking (inState .incompatible) 0x15 []).tap.completes 0x15 [] = true ∧
    (inState .incompatible).member.state = .incompatible := by decide +kernel

theorem witness_SetupStoreReadsAndWrites :
    State.reset.member.state = .setup ∧ State.reset.setup.record.wf = true ∧ doorRecord.wf = true ∧
    ([] : List Byte).length = setupWriteData 0 ∧
    (asking State.reset 0x20 [0, 0, 0]).tap.completes 0x20 (bytesOfHalf 0 ++ 0 :: []) = true ∧
    ([7, 7] : List Byte).length = setupWriteData 2 ∧ 512 < (0x1FF : Half).toNat + (2 : Byte).toNat ∧
    (asking State.reset 0x20 [1, 0xFF, 1, 7]).tap.completes 0x20 (bytesOfHalf 0x1FF ++ 1 :: [7]) = true ∧
    (0x1FF : Half).toNat + (1 : Byte).toNat ≤ 512 ∧
    (asking State.reset 0x21 [2, 1, 2]).tap.completes 0x21 (bytesOfHalf 0x201 ++ [2]) = true ∧
    0x202 < (0x201 : Half).toNat + (2 : Byte).toNat ∧
    (asking State.reset 0x21 [1, 0xFF, 3]).tap.completes 0x21 (bytesOfHalf 0x1FF ++ [3]) = true ∧
    (0x1FF : Half).toNat + (3 : Byte).toNat ≤ 0x202 := by decide +kernel

/-- Every code that a byte can hold stands in some record: the settings of each are reached. -/
theorem witness_SetupStoreReadsAndWrites_settings :
    (∀ code : Fin 256, byteAt [(0x1B1, BitVec.ofNat 8 code.val)] 0x1B1 = code.val) ∧
    memberState.setup.committed = true ∧ State.reset.setup.committed = false := by decide +kernel

theorem witness_CommitChecksThenListens :
    State.reset.member.state = .setup ∧ (asking State.reset 0x22 []).tap.completes 0x22 [] = true ∧
    firstFailure State.reset.setup.record = some 1 ∧ firstFailure doorRecord = none := by decide +kernel

theorem witness_AcceptedRecordIsSound : firstFailure doorRecord = none ∧ doorRecord.watched 0 = true ∧
    doorRecord.inputMode 0 = .pairA ∧ doorRecord.inputMode 2 = .single ∧
    (doorRecord.firstMap 2).entry = some 1 ∧ doorRecord.outputSource 1 = .watch ∧
    (doorRecord.outputMode 1).followsLevel = false := by decide +kernel

/-- A listener in SYNC with its quiet timer running and LBEAT at a level. -/
def syncing (lbeat : Level) : State := { inState .listen with
  link := { Link.reset with state := .sync, roundTimer := some 40, lbeat := lbeat } }

theorem witness_SyncFindsBoundary :
    (syncing .high).link.state = .sync ∧ (syncing .high).link.roundTimer.isSome = true ∧
    (syncing .high).link.lbeat = .high ∧ (syncing .low).link.lbeat = .low := by decide +kernel

theorem witness_RoundTimerComposesAndReleases :
    memberState.link.state = .hold ∧ memberState.link.roundTimer.isSome = true ∧ memberState.valid = true ∧
    (inState .listen).link.state = .hold ∧ (inState .listen).valid = false := by decide +kernel

theorem witness_SelectionMovesPendingIntoFlight :
    ({ Outbox.empty with pending := Outbox.empty.pending.set 31 32767, cursor := 31 } : Outbox).selection = [31] ∧
    ({ Outbox.empty with pending := Vector.replicate 32 1, cursor := 30 } : Outbox).selection =
      [30, 31, 0, 1, 2, 3, 4, 5] := by decide +kernel

theorem witness_WaitStallsAndResumes :
    ({ memberState with link := { Link.reset with state := .wait, stallTimer := some 100 } } : State).link.state = .wait ∧
    ({ memberState with
      link := { Link.reset with state := .wait, stallTimer := some 100 } } : State).link.stallTimer.isSome = true := by
  decide +kernel

/-- The member in a round with LBEAT high and a half-period wait. -/
def ticking (state : LinkState) (half : HalfPeriod) : State := { memberState with
  link := { Link.reset with state := state, half := half, lbeat := .high }
  frame := { FrameUnit.reset with sending := some aFrame } }

theorem witness_BitClockDrivesLines :
    (ticking .slots .beforeHold).link.half = .beforeHold ∧ (ticking .verdict .beforeRelease).link.half = .beforeRelease ∧
    (ticking .slots .beforeHold).link.lbeat = .high ∧ (ticking .verdict .beforeHold).link.state = .verdict := by
  decide +kernel

theorem witness_LbeatRiseSamplesOneBit :
    risesIn .verdict (closing .member true [false, true, false] [.high] []) ∧
    (closing .member true [false, true, false] [.high] []).link.verdicts.length + 1 < doorRecord.clusterSize ∧
    risesIn .slots (inSlot true 0 0) ∧ (inSlot true 0 0).link.slot ≠ (inSlot true 0 0).settings.stationNumber ∧
    (inSlot true 0 0).link.bit = 0 ∧ (inSlot false 1 0).transmits = false ∧ 1 ≤ (inSlot true 0 1).link.bit ∧
    slotLengthRead [true, true] ≠ some 2 ∧ risesIn .slots (inSlot true 1 98) ∧ (inSlot true 1 98).transmits = true ∧
    (inSlot true 1 98).link.slot = (inSlot true 1 98).settings.stationNumber := by decide +kernel

theorem witness_OwnSlotReadsBack :
    risesIn .slots (inSlot true 1 0) ∧ (inSlot true 1 0).transmits = true ∧
    (inSlot true 1 0).link.slot = (inSlot true 1 0).settings.stationNumber ∧
    (({ (inSlot true 1 0).link with holdLdata := true } : Link).holdLdata = true ↔ Level.low = .low) ∧
    ((inSlot true 1 98).link.holdLdata = true ↔ Level.high = .low) ∧
    ({ (inSlot true 1 98).link with slotLength := some 99 } : Link).slotLength = some ((inSlot true 1 98).link.bit + 1) ∧
    ({ (inSlot true 1 98).link with slotLength := some 100 } : Link).slotLength ≠
      some ((inSlot true 1 98).link.bit + 1) := by decide +kernel

theorem witness_CollisionStrikesOnceThenFaults :
    risesIn .slots (inSlot true 1 0) ∧ (inSlot true 1 0).transmits = true ∧ (inSlot true 1 0).frame.collided = false ∧
    ¬((inSlot true 1 4).link.holdLdata = true ↔ Level.low = .low) ∧ (inSlot true 1 4).frame.strike = false ∧
    1 ≤ (inSlot true 1 4).link.bit ∧
    ¬(({ (inSlot true 1 0).link with holdLdata := true } : Link).holdLdata = true ↔ Level.high = .low) ∧
    ({ (inSlot true 1 98).link with slotLength := some 99 } : Link).slotLength = some ((inSlot true 1 98).link.bit + 1) ∧
    ({ (inSlot true 1 4).frame with strike := true } : FrameUnit).strike = true := by decide +kernel

theorem witness_FrameReceivedJudgesSender :
    risesIn .slots (inSlot true 0 98) ∧ (inSlot true 0 98).link.slot ≠ (inSlot true 0 98).settings.stationNumber ∧
    1 ≤ (inSlot true 0 98).link.bit ∧
    ({ (inSlot true 0 98).link with slotLength := some 99 } : Link).slotLength =
      some ((inSlot true 0 98).link.bit + 1) := by decide +kernel

theorem witness_AbortReturnsContributions :
    (ticking .slots .stopped).link.state = .slots ∧ (ticking .verdict .stopped).link.state = .verdict ∧
    ({ (ticking .slots .stopped).link with stuckTimer := some 1280 } : Link).stuckTimer.isSome = true := by decide +kernel

theorem witness_ReturnRestoresOutbox :
    ((({ Outbox.empty with flightDeltas := [⟨0, 5⟩, ⟨1, 7⟩] } : Outbox)).flightDeltas.map fun d => d.entry).Nodup ∧
    ({ Outbox.empty with pending := Outbox.empty.pending.set 0 32767 } : Outbox).flightEmpty = true ∧
    (∀ e : Entry, -32767 ≤ (Outbox.empty.pending.set 0 32767)[e] ∧ (Outbox.empty.pending.set 0 32767)[e] ≤ 32767) := by
  decide +kernel

/-- The member at the last verdict edge with its own frame alone present. -/
def closingAlone : State := closing .member true [false, true, false] [.high, .high] [.silent, .own false, .silent]

theorem witness_CommittedRoundAtMember :
    atClose closingAlone ∧ closingAlone.valid = true ∧ ownFramePresent closingAlone ∧
    objectorsWith closingAlone .high = [] ∧ closingAlone.frame.object = false ∧
    1 ≤ closingAlone.settings.objectionLimit ∧
    foreignBelow closingAlone.frame.results closingAlone.settings.stationNumber = false ∧
    closingAlone.outbox.flightLeave = false := by decide +kernel

theorem witness_LeaveParksStation :
    let s : State := { closingAlone with outbox := { Outbox.empty with flightLeave := true } }
    atClose s ∧ s.member.state = .member ∧ ownFramePresent s ∧ objectorsWith s .high = [] ∧ s.frame.object = false ∧
    1 ≤ s.settings.objectionLimit ∧ foreignBelow s.frame.results s.settings.stationNumber = false ∧
    s.outbox.flightLeave = true := by decide +kernel

/-- The member at the last verdict edge of a round that it objected to, with a streak. -/
def closingVetoed (streak : Nat) : State :=
  let s := closing .member true [true, true, false] [.high, .low] [.invalid, .own false, .silent]
  { s with frame := { s.frame with object := true }, member := { s.member with streak := streak } }

theorem witness_VetoedRoundChangesNoTable :
    atClose (closingVetoed 0) ∧ (closingVetoed 0).valid = true ∧ ownFramePresent (closingVetoed 0) ∧
    objectorsWith (closingVetoed 0) .high ≠ [] ∧
    foreignBelow (closingVetoed 0).frame.results (closingVetoed 0).settings.stationNumber = false ∧
    (closingVetoed 0).member.streak + 1 < (closingVetoed 0).settings.objectionLimit := by decide +kernel

/-- The member at the last verdict edge with its own slot marked silent, another station present. -/
def closingUnheard (verdict : Level) : State :=
  closing .member true [true, false, false] [verdict, .high] [.valid aFrame false, .own true, .silent]

theorem witness_VetoedRoundChangesNoTable_ownSilent :
    (∀ verdict, atClose (closingUnheard verdict) ∧ (closingUnheard verdict).valid = true ∧
      (closingUnheard verdict).transmits = true ∧
      (closingUnheard verdict).link.presence[(closingUnheard verdict).settings.stationNumber]? ≠ some true ∧
      foreignBelow (closingUnheard verdict).frame.results (closingUnheard verdict).settings.stationNumber = false ∧
      (closingUnheard verdict).member.streak < (closingUnheard verdict).settings.objectionLimit ∧
      true ∈ (closingUnheard verdict).link.presence) ∧
    objectorsWith (closingUnheard .high) .high = [] ∧ objectorsWith (closingUnheard .low) .high ≠ [] := by
  refine ⟨fun verdict => ?_, by decide +kernel, by decide +kernel⟩
  cases verdict <;> decide +kernel

theorem witness_VetoedRoundChangesNoTable_listen :
    let s := closing .listen false [true, false, false] [.low, .high] [.valid aFrame false, .silent, .silent]
    atClose s ∧ s.member.state = .listen ∧ s.transmits = false ∧ objectorsWith s .high ≠ [] ∧
    foreignHeard s.frame.results = false ∧ 1 ≤ s.settings.foundingSilence := by decide +kernel

theorem witness_WithdrawalAtLimit :
    atClose (closingVetoed 1) ∧ (closingVetoed 1).valid = true ∧ ownFramePresent (closingVetoed 1) ∧
    objectorsWith (closingVetoed 1) .high ≠ [] ∧ (closingVetoed 1).frame.object = true ∧
    (closingVetoed 1).settings.objectionLimit ≤ (closingVetoed 1).member.streak + 1 ∧
    foreignBelow (closingVetoed 1).frame.results (closingVetoed 1).settings.stationNumber = false := by decide +kernel

theorem witness_ForeignDigestStandsAside :
    let heard := closing .listen false [true, false, false] [.high, .high] [.valid aFrame true, .silent, .silent]
    let below := { closingVetoed 1 with frame := { (closingVetoed 1).frame with
      results := [.valid aFrame true, .own false, .silent] } }
    atClose heard ∧ heard.member.state = .listen ∧ heard.transmits = false ∧
    foreignHeard heard.frame.results = true ∧ atClose below ∧ below.valid = true ∧ objectorsWith below .high ≠ [] ∧
    foreignBelow below.frame.results below.settings.stationNumber = true := by decide +kernel

/-- The member at the last verdict edge with its own slot marked silent and a foreign digest in slot 0, no verdict low. -/
def closingForeign : State := { closingUnheard .high with
  frame := { (closingUnheard .high).frame with results := [.valid aFrame true, .own true, .silent], object := true } }

theorem witness_ForeignDigestStandsAside_ownSilent :
    atClose closingForeign ∧ closingForeign.valid = true ∧ closingForeign.transmits = true ∧
    closingForeign.link.presence[closingForeign.settings.stationNumber]? ≠ some true ∧
    objectorsWith closingForeign .high = [] ∧ true ∈ closingForeign.link.presence ∧
    foreignBelow closingForeign.frame.results closingForeign.settings.stationNumber = true := by decide +kernel

/-- R20 and R94: such a round is applied, then the station is INCOMPATIBLE with the round's CS kept. -/
theorem test_foreign_commit_is_applied :
    (after (.roundClose .high []) closingForeign).map (fun t => (t.member.state, t.replica.cs, t.replica.stale)) =
      some (.incompatible, 8, true) := by decide +kernel

theorem witness_ListenerAdoptsCommittedRound :
    let s := closing .listen false [true, false, false] [.high, .high] [.valid aFrame false, .silent, .silent]
    let doubtful := closing .listen false [true, false, false] [.high, .high] [.invalid, .silent, .silent]
    let emptied : State := { s with replica := Replica.empty }
    atClose s ∧ s.member.state = .listen ∧ s.transmits = false ∧ objectorsWith s .high = [] ∧ true ∈ s.link.presence ∧
    foreignHeard s.frame.results = false ∧ 1 ≤ s.settings.foundingSilence ∧
    s.replica.inDoubt s.frame.results = false ∧
    (s.replica.adopt s.settings (ownDigestFrames s.frame.results)).complete s.settings = true ∧
    atClose doubtful ∧ doubtful.replica.inDoubt doubtful.frame.results = true ∧
    emptied.replica.inDoubt emptied.frame.results = false ∧
    (emptied.replica.adopt s.settings (ownDigestFrames s.frame.results)).complete s.settings = false := by decide +kernel

theorem witness_SilenceFoundsTable :
    let s := closing .listen false [false, false, false] [.high, .high] [.silent, .silent, .silent]
    let third : State := { s with member := { s.member with silence := 2 } }
    atClose s ∧ s.member.state = .listen ∧ s.transmits = false ∧ true ∉ s.link.presence ∧
    foreignHeard s.frame.results = false ∧ min 255 (s.member.silence + 1) < s.settings.foundingSilence ∧
    atClose third ∧ third.settings.foundingSilence ≤ min 255 (third.member.silence + 1) ∧
    third.settings.foundingAllowed = true := by decide +kernel

theorem witness_RosterFollowsPresence : (0 : Fin 16).val ≠ doorRecord.stationNumber ∧
    (15 : Fin 16).val ≠ doorRecord.stationNumber := by decide +kernel

theorem witness_CountDeltaWraps : doorRecord.kind 1 = .count ∧ (0 : Entry) ≠ 1 := by decide +kernel

theorem witness_LevelDeltaClamps : doorRecord.kind 0 = .level ∧ doorRecord.kind 31 = .off ∧
    memberState.replica.entries[0].value ≤ doorRecord.ceiling 0 := by decide +kernel

theorem witness_ListenerFollowsMember :
    (∀ e : Entry, Replica.empty.entries[e].known = true →
      Replica.empty.entries[e].value = memberState.replica.entries[e].value) ∧
    (Replica.empty.csKnown = true → Replica.empty.cs = memberState.replica.cs) ∧
    (∀ f ∈ [aFrame], f.cs = memberState.replica.cs ∧ f.carryValue = memberState.replica.entries[f.carryIndex].value) ∧
    memberState.replica.entries[2].known = false ∧ (∀ f ∈ [aFrame], f.carryIndex ≠ 2) := by
  decide +kernel

theorem witness_FrameReadsBackAsSent : aFrame.zeros.length ≤ 3 ∧ aFrame.deltas.length ≤ 15 := by decide +kernel

/-- A state whose step composes a frame: a member with a pending sum. -/
def composing : State := { memberState with
  pending := [.roundTimerExpiry], outbox := { Outbox.empty with pending := Outbox.empty.pending.set 0 3 } }

theorem composing_SetupWf : SetupWf composing :=
  ⟨by decide +kernel, by decide +kernel, fun _ => ⟨test_door_record_accepted, by simp only [composing, memberState]⟩,
    by decide +kernel, by decide +kernel, by decide +kernel⟩

theorem composing_LinkWf : LinkWf composing := by decide +kernel

theorem composing_OutboxWf : OutboxWf composing := by decide +kernel

theorem composing_NoticesWf : NoticesWf composing := by decide +kernel

theorem composing_ResultsWf : ResultsWf composing := by decide +kernel

theorem composing_ValuesWf : ValuesWf composing := by decide +kernel

theorem composing_ValidWf : ValidWf composing := by decide +kernel

theorem composing_StreakWf : StreakWf composing := by decide +kernel

theorem composing_WatchesWf : WatchesWf composing := by decide +kernel

theorem composing_OutputsWf : OutputsWf composing := by decide +kernel

theorem composing_OutboxNamesUsed : OutboxNamesUsed composing := by decide +kernel

theorem composing_lawful : Lawful composing :=
  ⟨composing_SetupWf, composing_LinkWf, composing_OutboxWf, composing_NoticesWf, composing_ResultsWf, composing_ValuesWf, composing_ValidWf, composing_StreakWf, composing_WatchesWf, composing_OutputsWf, composing_OutboxNamesUsed, by decide +kernel⟩

theorem composing_countingWf : CountingWf composing :=
  ⟨composing_SetupWf, by decide +kernel, by decide +kernel⟩

theorem witness_ComposedFrameIsReceivedValid : Lawful composing ∧ composing.valid = true ∧
    (∀ e : Entry, doorRecord.kind e = composing.settings.kind e ∧
      doorRecord.ceiling e = composing.settings.ceiling e) :=
  ⟨composing_lawful, by decide +kernel, by decide +kernel⟩

theorem witness_SettleFilterAcceptsAtS :
    (1 ≤ 1) ∧ ({ primed := false, level := .low, run := 0 } : Input).primed = false ∧
    ({ primed := true, level := .low, run := 0 } : Input).primed = true ∧ 0 < 1 ∧ 15 < 16 ∧
    Level.high ≠ ({ primed := true, level := .low, run := 0 } : Input).level ∧ 0 + 1 < 2 ∧ 15 + 1 = 16 := by decide

theorem witness_SampleInstantSamplesEveryInput :
    State.reset.inputs.clock = false ∧ memberState.inputs.clock = true ∧
    (∀ i : Fin 8, memberState.settings.inputMode i = .unused ∨ memberState.inputs.inputs[i].primed = false ∨
      memberState.inputs.inputs[i].level = Level.ofBit ((0x07 : Byte).getLsbD i.val)) ∧
    memberState.settings.pairInUse 0 = true ∧ memberState.inputs.inputs[pairA 0].primed = true ∧
    memberState.settings.pairInUse 1 = false ∧
    ({ memberState with inputs := { Conditioner.reset with clock := true } } : State).inputs.inputs[pairA 0].primed =
      false ∧
    ({ memberState with inputs := { Conditioner.reset with clock := true } } : State).inputs.inputs[pairB 0].primed =
      false := by decide +kernel

theorem witness_SingleEdgeAddsAmount :
    memberState.inputs.clock = true ∧ memberState.settings.inputMode 2 = .single ∧
    memberState.inputs.inputs[2].primed = true ∧
    memberState.inputs.inputs[2].level ≠ Level.ofBit ((0x03 : Byte).getLsbD 2) ∧
    memberState.settings.settleCount 2 ≤ memberState.inputs.inputs[2].run + 1 ∧
    (∀ j : Fin 8, j ≠ 2 → memberState.settings.inputMode j = .unused ∨
      (memberState.inputs.inputs[j].primed = true ∧
        memberState.inputs.inputs[j].level = Level.ofBit ((0x03 : Byte).getLsbD j.val))) ∧
    (∀ p : Fin 4, memberState.settings.pairInUse p = true → memberState.inputs.inputs[pairA p].primed = true) := by
  decide +kernel

theorem witness_DetectorFollowsTable :
    Detector.reset.state ≠ .stuck ∧ (Detector.start true false).state = .stuck := by decide

theorem witness_DetectorFollowsTable_sample :
    memberState.inputs.clock = true ∧ memberState.settings.pairInUse 0 = true ∧ (1 : Fin 8) = pairB 0 ∧
    memberState.inputs.inputs[1].primed = true ∧
    memberState.inputs.inputs[1].level ≠ Level.ofBit ((0x05 : Byte).getLsbD 1) ∧
    memberState.settings.settleCount 1 ≤ memberState.inputs.inputs[1].run + 1 ∧
    (∀ j : Fin 8, j ≠ 1 → memberState.settings.inputMode j = .unused ∨
      (memberState.inputs.inputs[j].primed = true ∧
        memberState.inputs.inputs[j].level = Level.ofBit ((0x05 : Byte).getLsbD j.val))) ∧
    (∀ q : Fin 4, memberState.settings.pairInUse q = true → memberState.inputs.inputs[pairA q].primed = true) := by
  decide +kernel

/-- R115 and R117 at the sample instant: a pair primed with B blocked starts in STUCK, and the last step of a forward
crossing of P0, B clearing in B2_FWD, adds its first map's +1 to entry 0. -/
theorem test_sample_primes_and_counts_pair :
    ((after (.sampleInstant 0x01 []) { memberState with inputs := { Conditioner.reset with clock := true } }).map
        (·.detectors[0]),
      (after (.sampleInstant 0x07 []) { memberState with
        inputs := { memberState.inputs with
          inputs := memberState.inputs.inputs.set 1 { primed := true, level := .low, run := 0 } }
        detectors := memberState.detectors.set 0 { state := .b2Fwd, markA := false, markB := true, timer := none } }).map
        (fun t => (t.detectors[0].state, t.outbox.pending[0]))) =
      (some { state := .stuck, markA := false, markB := true, timer := none }, some (.idle, 1)) := by decide +kernel

/-- Table 7-5: A blocking and B clearing at one instant in B2_FWD. Taken A first, nothing is counted; B first, a forward
passage. -/
theorem test_order_of_two_changes :
    let crossing : State := { memberState with
      inputs := { memberState.inputs with
        inputs := memberState.inputs.inputs.set 1 { primed := true, level := .low, run := 0 } }
      detectors := memberState.detectors.set 0 { state := .b2Fwd, markA := false, markB := true, timer := none } }
    acceptsChange crossing 0x06 0 ∧ acceptsChange crossing 0x06 1 ∧
    ([[0, 1], [1, 0]] : List (List (Fin 8))).map (fun order =>
      (after (.sampleInstant 0x06 order) crossing).map fun t => (t.detectors[0].state, t.outbox.pending[0])) =
      [some (.a1, 0), some (.a1, 1)] := by decide +kernel

theorem witness_TimersEndCrossingsAndPulses :
    (memberState.detectors.set 0 { Detector.reset with state := .a1, timer := some 100 })[0].timer.isSome = true ∧
    memberState.detectors[0].timer = none ∧
    (memberState.outputs.set 1 { level := .high, pulse := some 4, latch := none })[1].pulse.isSome = true ∧
    memberState.outputs[1].pulse = none := by decide +kernel

/-- The watches after a commit that has brought entry 0 to 280. -/
def reached : Vector Watch 32 := memberState.watches.set 0 .above

theorem witness_WatchesAndOutputsFollowCommit :
    doorRecord.watched 1 = false ∧ doorRecord.watched 0 = true ∧ memberState.watches[0] = .below ∧ reached[0] = .above ∧
    doorRecord.watchHigh 0 = 280 ∧ doorRecord.watchLow 0 = 270 ∧
    readValue doorRecord memberState.replica 0 < doorRecord.watchHigh 0 ∧
    doorRecord.watchLow 0 < readValue doorRecord memberState.replica 0 ∧
    doorRecord.outputSource 0 = .watch ∧ doorRecord.outputEntry 0 = 0 ∧ memberState.watches[0] ≠ reached[0] ∧
    doorRecord.outputMode 0 = .level ∧ doorRecord.outputMode 1 = .pulseBoth ∧
    (doorRecord.write 0x1E2 2).outputMode 0 = .levelInverted ∧ (doorRecord.write 0x1E6 3).outputMode 1 = .pulseOnReach ∧
    (doorRecord.write 0x1E6 4).outputMode 1 = .pulseOnClear ∧ doorRecord.outputSource 2 ≠ .watch := by decide +kernel

/-- R131: with a watched entry reached, a loss of validity puts the level output back at its safe level. -/
theorem test_lost_validity_is_safe :
    ((outputsWithValidity doorRecord reached memberState.outputs)[0].level,
      (outputsWithoutValidity doorRecord (outputsWithValidity doorRecord reached memberState.outputs))[0].level) =
      (.high, .low) := by decide +kernel

theorem witness_PostingFollowsTable :
    (∀ r ∈ List.replicate 15 (linkNotice .linkStalled none), r.isOverflow = false) ∧
    (List.replicate 14 (linkNotice .linkStalled none)).length ≤ 14 ∧
    (List.replicate 15 (linkNotice .linkStalled none)).length = 15 := by decide +kernel

/-- The notices of a close at which every block has one. -/
def onePost (n : Notice) (cuts : List Notice) : Posts :=
  { link := [n], replica := cuts, watch := [n], snapshot := [n], outbox := [n], membership := [n] }

theorem witness_PostingFollowsTable_order (n : Notice) :
    let p := onePost n []
    let empty : Posts := {}
    (p.link = n :: [] ∧ (onePost n [n]).replica = n :: [] ∧ p.watch = n :: [] ∧ p.replica = [] ∧ p.snapshot = n :: [] ∧
      p.outbox = n :: [] ∧ p.membership = n :: []) ∧
    (empty.link = [] ∧ empty.replica = [] ∧ (onePost n [n]).replica ≠ [] ∧ empty.watch = [] ∧ empty.snapshot = [] ∧
      empty.outbox = [] ∧ empty.membership = []) := by
  simp [onePost]

/-- R126 and R141: the Watch unit, named first, waits for the Replica's notice. -/
theorem test_watch_waits_for_clamp :
    Posts.inOrder [.watch, .replica, .watch]
      { replica := [clampedNotice none (0, 3)], watch := [linkNotice .limitReached none] } =
      [clampedNotice none (0, 3), linkNotice .limitReached none] := by decide

theorem witness_EveryStepKeepsLaws :
    Lawful composing ∧ (stepped composing).map (·.link.state) = some .wait :=
  ⟨composing_lawful, by decide +kernel⟩

theorem witness_EveryStepKeepsNoticeQueue : NoticesWf composing ∧ (stepped composing).isSome = true :=
  ⟨composing_NoticesWf, by decide +kernel⟩

theorem witness_EveryStepKeepsOutboxLimits : OutboxWf composing ∧ (stepped composing).isSome = true :=
  ⟨composing_OutboxWf, by decide +kernel⟩

theorem witness_EveryStepKeepsLinkDiscipline : LinkWf composing ∧ (stepped composing).isSome = true :=
  ⟨composing_LinkWf, by decide +kernel⟩

theorem witness_EveryStepKeepsCounting : CountingWf composing ∧ (stepped composing).isSome = true :=
  ⟨composing_countingWf, by decide +kernel⟩

theorem test_laws_after_composition :
    (stepped composing).all (fun t => decide (OutboxWf t) && decide (LinkWf t) && decide (ResultsWf t)) = true := by
  decide +kernel

end Sys2Proof.Tests
end

namespace Sys2Proof.Machine

open Sys2Proof.Safety

/-! ### The laws of the tally link, as far as they reach -/

/-- Every next state that an outcome answers meets `P`. -/
def Leads (P : State → Prop) (outcome : Host.Outcome State Fault Refusal) : Prop :=
  ∀ t, outcome = .next t → P t

@[simp] theorem leads_next (P : State → Prop) (t : State) : Leads P (.next t) ↔ P t :=
  ⟨fun h => h t rfl, fun h _ eq => Host.Outcome.next.inj eq ▸ h⟩

theorem leads_ite {P : State → Prop} {c : Prop} [Decidable c] {a b : Host.Outcome State Fault Refusal}
    (pos : c → Leads P a) (neg : ¬c → Leads P b) : Leads P (if c then a else b) := by
  split
  · exact pos ‹_›
  · exact neg ‹_›

theorem Leads.mono {P Q : State → Prop} {outcome : Host.Outcome State Fault Refusal} (h : Leads P outcome)
    (imp : ∀ t, P t → Q t) : Leads Q outcome := fun t eq => imp t (h t eq)

/-- A request leads where its owner's effect leads, for whatever the tap does not touch. -/
theorem leads_takeRequest {P : State → Prop} {code : Byte} {operands : List Byte} {effect : State → State × Answer}
    {s : State} (stay : P s) (tap : ∀ t a, P t → P { t with tap := a }) (done : P (effect s).1) :
    Leads P (takeRequest code operands effect s) := by
  rcases takeRequest_cases code operands effect s with ⟨-, eq⟩ | ⟨-, eq⟩ <;> rw [eq, leads_next]
  · exact stay
  · exact tap _ _ done

/-- What the laws of R24 and R68 speak of stands in `t` as in `s`. -/
structure SameLink (s t : State) : Prop where
  link : t.link = s.link
  frame : t.frame = s.frame
  state : t.member.state = s.member.state
  flight : t.outbox.flightEmpty = s.outbox.flightEmpty

theorem SameLink.refl (s : State) : SameLink s s := ⟨rfl, rfl, rfl, rfl⟩

theorem SameLink.trans {s t u : State} (st : SameLink s t) (tu : SameLink t u) : SameLink s u :=
  ⟨tu.link.trans st.link, tu.frame.trans st.frame, tu.state.trans st.state, tu.flight.trans st.flight⟩

theorem linkWf_of_sameLink {s t : State} (h : LinkWf s) (same : SameLink s t) : LinkWf t := by
  obtain ⟨link, frame, state, flight⟩ := same
  simp only [LinkWf, State.transmits, State.valid, link, frame, state, flight] at h ⊢
  exact h

/-! ### What leaves the tally link as it is -/

theorem sameLink_addPending (s : State) (e : Entry) (amount : Int) : SameLink s (s.addPending e amount) := by
  refine ⟨rfl, rfl, rfl, ?_⟩
  rw [State.addPending_outbox, Outbox.addNoting_fst, Outbox.add_frame]
  rfl

theorem sameLink_addMap (s : State) (map : CountMap) : SameLink s (s.addMap map) := by
  rcases s.addMap_cases map with ⟨-, eq⟩ | ⟨e, -, eq⟩ <;> rw [eq]
  · exact .refl s
  · exact sameLink_addPending s e _

theorem sameLink_takePairChange (s : State) (i : Fin 8) (now : Level) : SameLink s (s.takePairChange i now) := by
  unfold State.takePairChange
  dsimp only
  split
  · exact ⟨rfl, rfl, rfl, rfl⟩
  all_goals
    refine .trans ?_ (sameLink_addMap _ _)
    exact ⟨rfl, rfl, rfl, rfl⟩

theorem sameLink_takeInputEvent (s : State) (i : Fin 8) : SameLink s (s.takeInputEvent i) := by
  unfold State.takeInputEvent
  dsimp only
  split
  · split
    · exact sameLink_addMap s _
    · exact .refl s
  · exact sameLink_takePairChange s i _
  · exact sameLink_takePairChange s i _
  · exact .refl s

theorem sameLink_takeSamples (s : State) (levels : Byte) (order : List (Fin 8)) :
    SameLink s (s.takeSamples levels order) :=
  State.takeSamples_induction levels order s (fun t i h => h.trans (sameLink_takeInputEvent t i)) ⟨rfl, rfl, rfl, rfl⟩

theorem sameLink_idle (s : State) : SameLink s s.idle := by
  rcases s.idle_cases with ⟨-, eq⟩ | ⟨-, eq⟩ <;> rw [eq]
  · exact ⟨rfl, rfl, rfl, rfl⟩
  · exact .refl s

theorem leads_request_sameLink {code : Byte} {operands : List Byte} {effect : State → State × Answer} {s : State}
    (done : SameLink s (effect s).1) : Leads (SameLink s) (takeRequest code operands effect s) :=
  leads_takeRequest (.refl s) (fun _ _ h => ⟨h.link, h.frame, h.state, h.flight⟩) done

theorem leads_reading_sameLink {code : Byte} {operands : List Byte} {f : State → Answer} {s : State} :
    Leads (SameLink s) (takeRequest code operands (reading f) s) := leads_request_sameLink (.refl s)

theorem sameLink_requestZero (s : State) (entry : Byte) : SameLink s (s.requestZero entry).1 := by
  rcases s.requestZero_cases entry with ⟨_, eq⟩ | ⟨e, _, _, _, _, _, _, eq⟩ <;> rw [eq]
  · exact .refl s
  · exact ⟨rfl, rfl, rfl, rfl⟩

theorem sameLink_requestAdjust (s : State) (entry : Byte) (amount : Half) :
    SameLink s (s.requestAdjust entry amount).1 := by
  rcases s.requestAdjust_cases entry amount with ⟨_, eq⟩ | ⟨e, _, _, _, eq⟩ <;> rw [eq]
  · exact .refl s
  · exact sameLink_addPending s e _

theorem sameLink_requestOutput (s : State) (output level : Byte) : SameLink s (s.requestOutput output level).1 := by
  rcases s.requestOutput_cases output level with ⟨_, eq⟩ | ⟨o, l, _, _, _, _, eq⟩ <;> rw [eq]
  · exact .refl s
  · exact ⟨rfl, rfl, rfl, rfl⟩

theorem sameLink_requestFreeze (s : State) : SameLink s s.requestFreeze.1 := by
  rcases s.requestFreeze_cases with ⟨_, eq⟩ | ⟨_, eq⟩ <;> rw [eq]
  · exact .refl s
  · exact ⟨rfl, rfl, rfl, rfl⟩

theorem sameLink_requestLeave (s : State) : SameLink s s.requestLeave.1 := by
  rcases s.requestLeave_cases with ⟨_, eq⟩ | ⟨_, eq⟩ <;> rw [eq]
  · exact .refl s
  · exact ⟨rfl, rfl, rfl, rfl⟩

theorem sameLink_releaseSnapshot (s : State) : SameLink s s.releaseSnapshot.1 := by
  unfold State.releaseSnapshot
  split
  · exact .refl s
  · exact ⟨rfl, rfl, rfl, rfl⟩

theorem sameLink_requestWrite (s : State) (offset : Half) (length : Byte) (data : List Byte) :
    SameLink s (s.requestWrite offset length data).1 := by
  rcases s.requestWrite_cases offset length data with ⟨_, eq⟩ | ⟨_, _, _, _, eq⟩ <;> rw [eq]
  · exact .refl s
  · exact ⟨rfl, rfl, rfl, rfl⟩

theorem execSetupWrite_sameLink (offset : Half) (length : Byte) (data : List Byte) (s : State) :
    Leads (SameLink s) (execSetupWrite offset length data s) :=
  leads_ite (fun _ => leads_request_sameLink (sameLink_requestWrite s offset length data))
    (fun _ => (leads_next _ _).mpr (.refl s))

theorem execUnknown_sameLink (code : Byte) (s : State) : Leads (SameLink s) (execUnknown code s) := by
  unfold execUnknown
  split
  · exact leads_reading_sameLink
  · exact (leads_next _ _).mpr (.refl s)

theorem execResetEnd_sameLink (fmt1 fmt0 : Level) (s : State) : Leads (SameLink s) (execResetEnd fmt1 fmt0 s) := by
  unfold execResetEnd
  split <;> rw [leads_next]
  · exact .refl s
  · exact ⟨rfl, rfl, rfl, rfl⟩

theorem execTselFall_sameLink (fall : SelectFall) (s : State) : Leads (SameLink s) (execTselFall fall s) := by
  unfold execTselFall
  refine leads_ite (fun _ => (leads_next _ _).mpr (.refl s)) fun _ => leads_ite (fun _ => ?_) fun _ =>
    leads_ite (fun _ => ?_) fun _ => ?_
  all_goals exact (leads_next _ _).mpr ⟨rfl, rfl, rfl, rfl⟩

theorem execTselRise_sameLink (s : State) : Leads (SameLink s) (execTselRise s) := by
  unfold execTselRise
  refine leads_ite (fun _ => (leads_next _ _).mpr (.refl s)) fun _ => leads_ite (fun _ => ?_) fun _ => ?_
  all_goals exact (leads_next _ _).mpr ⟨rfl, rfl, rfl, rfl⟩

theorem execTclkSamplingEdge_sameLink (tdi : Level) (elapsed : Nat) (s : State) :
    Leads (SameLink s) (execTclkSamplingEdge tdi elapsed s) := by
  simp only [execTclkSamplingEdge, State.withEdge_eq]
  split
  case h_5 => split <;> exact (leads_next _ _).mpr ⟨rfl, rfl, rfl, rfl⟩
  all_goals exact (leads_next _ _).mpr ⟨rfl, rfl, rfl, rfl⟩

theorem execTakeNoticeDelivered_sameLink (s : State) : Leads (SameLink s) (execTakeNoticeDelivered s) := by
  unfold execTakeNoticeDelivered
  split <;> rw [leads_next]
  · exact ⟨rfl, rfl, rfl, rfl⟩
  · exact .refl s

theorem execSampleInstant_sameLink (levels : Byte) (order : List (Fin 8)) (s : State) :
    Leads (SameLink s) (execSampleInstant levels order s) :=
  leads_ite (fun _ => (leads_next _ _).mpr (sameLink_takeSamples s levels order))
    (fun _ => (leads_next _ _).mpr (.refl s))

theorem execPassageTimerExpiry_sameLink (pair : Fin 4) (s : State) :
    Leads (SameLink s) (execPassageTimerExpiry pair s) :=
  leads_ite (fun _ => (leads_next _ _).mpr ⟨rfl, rfl, rfl, rfl⟩) (fun _ => (leads_next _ _).mpr (.refl s))

theorem execPulseTimerExpiry_sameLink (output : Fin 8) (s : State) :
    Leads (SameLink s) (execPulseTimerExpiry output s) :=
  leads_ite (fun _ => (leads_next _ _).mpr ⟨rfl, rfl, rfl, rfl⟩) (fun _ => (leads_next _ _).mpr (.refl s))

end Sys2Proof.Machine

namespace Sys2Proof.Machine

open Sys2Proof.Safety

/-! ### What enters OFF, SYNC, HOLD, WAIT and SLOTS -/

/-- A station that transmits nothing has nothing in flight. -/
theorem linkWf_flightEmpty_of_silent {s : State} (h : LinkWf s) (silent : s.transmits = false) :
    s.outbox.flightEmpty = true := by
  obtain ⟨-, -, -, -, -, flight, -⟩ := h
  by_contra busy
  simp_all

/-- Outside WAIT and a round the station transmits nothing and has nothing in flight. -/
theorem linkWf_silent {s : State} (h : LinkWf s) (wait : s.link.state ≠ .wait) (round : s.link.inRound = false) :
    s.transmits = false ∧ s.outbox.flightEmpty = true := by
  have silent : s.transmits = false := by
    obtain ⟨-, -, -, -, transmits, -, -⟩ := h
    by_contra sends
    simp_all
  exact ⟨silent, linkWf_flightEmpty_of_silent h silent⟩

/-- The laws in OFF: no line held, nothing sent, received or in flight (R24). -/
theorem linkWf_of_off {s : State} (aside : standsAside s.member.state = true) (link : s.link = s.link.enterOff)
    (frame : s.frame = s.frame.afterOff) (flight : s.outbox.flightEmpty = true) : LinkWf s := by
  rw [LinkWf, State.transmits, link, frame]
  simp [Link.inRound, Link.reset, FrameUnit.afterOff, FrameUnit.reset, aside, flight]

/-- The laws in HOLD: LMARK alone held, nothing sent or in flight (R26, R39, R42). -/
theorem linkWf_of_hold {s : State} (aside : standsAside s.member.state = false) (state : s.link.state = .hold)
    (holdLmark : s.link.holdLmark = true) (holdLbeat : s.link.holdLbeat = false) (holdLdata : s.link.holdLdata = false)
    (silent : s.transmits = false) (flight : s.outbox.flightEmpty = true) : LinkWf s := by
  simp [LinkWf, aside, state, holdLmark, holdLbeat, holdLdata, silent, flight]

/-- Entry to HOLD, whatever is left of the link before it. -/
theorem linkWf_of_enterHold {s : State} {l : Link} {interval : Nat} (link : s.link = l.enterHold interval)
    (aside : standsAside s.member.state = false) (silent : s.transmits = false)
    (flight : s.outbox.flightEmpty = true) : LinkWf s :=
  linkWf_of_hold aside (by rw [link]; rfl) (by rw [link]; rfl) (by rw [link]; rfl) (by rw [link]; rfl) silent flight

/-- Outside OFF a station does not stand aside (R24). -/
theorem linkWf_not_standsAside {s : State} (h : LinkWf s) (on : s.link.state ≠ .off) :
    standsAside s.member.state = false := by
  obtain ⟨off, -⟩ := h
  by_contra aside
  exact on (off.mpr (by simpa using aside))

/-- In OFF no line is held (R24). -/
theorem linkWf_released_of_off {s : State} (h : LinkWf s) (off : s.link.state = .off) :
    s.link.holdLmark = false ∧ s.link.holdLbeat = false ∧ s.link.holdLdata = false := by
  obtain ⟨-, lmark, lbeat, ldata, -⟩ := h
  simp_all [Link.inRound]

/-- A station that leaves OFF for LISTEN holds LMARK when it enters HOLD and no line when it enters SYNC (R83, R99). -/
theorem linkWf_listenFromOff {s : State} (h : LinkWf s) (aside : standsAside s.member.state = true) (cause : Cause)
    (lmark lbeat : Level) : LinkWf (s.listenFromOff cause lmark lbeat) := by
  have off : s.link.state = .off := h.1.mpr aside
  obtain ⟨holdLmark, holdLbeat, holdLdata⟩ := linkWf_released_of_off h off
  obtain ⟨silent, flight⟩ := linkWf_silent h (by simp [off]) (by simp [off, Link.inRound])
  cases lmark with
  | low => exact linkWf_of_hold rfl rfl rfl rfl rfl silent flight
  | high =>
    have state : (s.listenFromOff cause .high lbeat).link.state = .sync := rfl
    have listens : (s.listenFromOff cause .high lbeat).member.state = .listen := rfl
    have lines : (s.listenFromOff cause .high lbeat).link.holdLmark = false ∧
        (s.listenFromOff cause .high lbeat).link.holdLbeat = false ∧
        (s.listenFromOff cause .high lbeat).link.holdLdata = false := ⟨holdLmark, holdLbeat, holdLdata⟩
    have quiet : (s.listenFromOff cause .high lbeat).transmits = false ∧
        (s.listenFromOff cause .high lbeat).outbox.flightEmpty = true := ⟨silent, flight⟩
    simp [LinkWf, state, listens, lines, quiet, standsAside]

theorem linkWf_requestRejoin {s : State} (h : LinkWf s) (lmark lbeat : Level) :
    LinkWf (s.requestRejoin lmark lbeat).1 := by
  rcases s.requestRejoin_cases lmark lbeat with eq | ⟨left, eq⟩ <;> rw [eq]
  · exact h
  · exact linkWf_listenFromOff h (by rcases left with eq | eq <;> rw [eq] <;> rfl) _ _ _

theorem linkWf_commitRecord {s : State} (h : LinkWf s) (aside : standsAside s.member.state = true)
    (lmark lbeat : Level) : LinkWf (s.commitRecord lmark lbeat) := by
  unfold State.commitRecord
  refine linkWf_listenFromOff ?_ ?_ _ _ _
  · exact linkWf_of_sameLink h ⟨rfl, rfl, rfl, rfl⟩
  · exact aside

theorem linkWf_requestCommit {s : State} (h : LinkWf s) (lmark lbeat : Level) :
    LinkWf (s.requestCommit lmark lbeat).1 := by
  rcases s.requestCommit_cases lmark lbeat with ⟨_, eq⟩ | ⟨_, _, _, eq⟩ | ⟨setup, _, eq⟩ <;> rw [eq]
  · exact h
  · exact linkWf_of_sameLink h ⟨rfl, rfl, rfl, rfl⟩
  · refine linkWf_commitRecord h ?_ lmark lbeat
    rw [setup]
    rfl

theorem linkWf_blocksReset (s : State) (record : Record) (kind : ResetKind) : LinkWf (s.blocksReset record kind) :=
  linkWf_of_off rfl rfl rfl rfl

/-- In SYNC the barrier begins or is joined: LMARK held, HOLD entered (R26). -/
theorem linkWf_enterHold_of_sync {s : State} (h : LinkWf s) (sync : s.link.state = .sync) (interval : Nat) :
    LinkWf { s with link := s.link.enterHold interval } := by
  obtain ⟨silent, flight⟩ := linkWf_silent h (by simp [sync]) (by simp [sync, Link.inRound])
  exact linkWf_of_enterHold rfl (linkWf_not_standsAside (s := s) h (by simp [sync])) silent flight

/-- A change of the link that keeps its state and the lines it holds keeps the laws. -/
theorem linkWf_of_sameLines {s : State} (h : LinkWf s) (l : Link) (state : l.state = s.link.state)
    (lmark : l.holdLmark = s.link.holdLmark) (lbeat : l.holdLbeat = s.link.holdLbeat)
    (ldata : l.holdLdata = s.link.holdLdata) : LinkWf { s with link := l } := by
  have transmits : State.transmits { s with link := l } = s.transmits := rfl
  have valid : State.valid { s with link := l } = s.valid := rfl
  simp only [LinkWf, transmits, valid, Link.inRound, state, lmark, lbeat, ldata] at h ⊢
  exact h

/-- The laws in WAIT: no line held, and what is in flight is in a frame that is sent with a valid replica (R27, R68). -/
theorem linkWf_of_wait {s : State} (aside : standsAside s.member.state = false) (state : s.link.state = .wait)
    (holdLmark : s.link.holdLmark = false) (holdLbeat : s.link.holdLbeat = false) (holdLdata : s.link.holdLdata = false)
    (valid : s.transmits = true → s.valid = true) (flight : s.outbox.flightEmpty = false → s.transmits = true) :
    LinkWf s := by
  simpa [LinkWf, aside, state, holdLmark, holdLbeat, holdLdata] using ⟨valid, flight⟩

/-- The composition and the release of LMARK are one event (R27). -/
theorem linkWf_compose {s : State} (h : LinkWf s) (hold : s.link.state = .hold) (limit : Nat) :
    LinkWf { s.compose with link := s.link.enterWait limit } := by
  have aside := linkWf_not_standsAside (s := s) h (by simp [hold])
  obtain ⟨silent, flight⟩ := linkWf_silent h (by simp [hold]) (by simp [hold, Link.inRound])
  obtain ⟨-, -, lbeat, ldata, -⟩ := h
  have released : s.link.holdLbeat = false ∧ s.link.holdLdata = false := by simp_all [Link.inRound]
  obtain ⟨holdLbeat, holdLdata⟩ := released
  unfold State.compose
  split
  · rename_i valid
    refine linkWf_of_wait aside rfl rfl holdLbeat holdLdata (fun _ => ?_) (fun _ => ?_)
    · simpa only [State.valid] using valid
    · simp only [State.transmits, Option.isSome_some]
  · have notSent : State.transmits { s with link := s.link.enterWait limit } = false := silent
    refine linkWf_of_wait aside rfl rfl holdLbeat holdLdata ?_ ?_
    · simp [notSent]
    · simp [flight]

end Sys2Proof.Machine

namespace Sys2Proof.Machine

open Sys2Proof.Safety

/-! ### What a round does to the tally link -/

/-- The laws in a round: LMARK released, LDATA held and contents in flight only by a station that transmits, and that
station's replica valid (R22, R24, R68). -/
theorem linkWf_iff_of_round {s : State} (round : s.link.inRound = true) :
    LinkWf s ↔ standsAside s.member.state = false ∧ s.link.holdLmark = false ∧
      (s.link.holdLdata = true → s.transmits = true) ∧ (s.transmits = true → s.valid = true) ∧
      (s.outbox.flightEmpty = false → s.transmits = true) := by
  rcases (s.link.inRound_iff).mp round with state | state <;> simp [LinkWf, Link.inRound, state]

/-- What a change within a round may touch of what the laws speak of: a held LDATA may be released. -/
structure SameRound (s t : State) : Prop where
  round : t.link.inRound = true
  lmark : t.link.holdLmark = s.link.holdLmark
  ldata : t.link.holdLdata = true → s.link.holdLdata = true
  sending : t.frame.sending = s.frame.sending
  state : t.member.state = s.member.state
  outbox : t.outbox = s.outbox

theorem linkWf_of_sameRound {s t : State} (h : LinkWf s) (round : s.link.inRound = true) (same : SameRound s t) :
    LinkWf t := by
  obtain ⟨round', lmark, ldata, sending, state, outbox⟩ := same
  rw [linkWf_iff_of_round round] at h
  rw [linkWf_iff_of_round round']
  simp only [State.transmits, State.valid, lmark, sending, state, outbox] at h ⊢
  obtain ⟨aside, released, drives, valid, flight⟩ := h
  exact ⟨aside, released, fun held => drives (ldata held), valid, flight⟩

theorem sameRound_recordBit {s : State} (round : s.link.inRound = true) (ldata : Level) :
    SameRound s (s.recordBit ldata) := by
  refine ⟨round, rfl, id, ?_, rfl, rfl⟩
  unfold State.recordBit
  dsimp only
  split <;> rfl

theorem sameRound_endSlot {s : State} (round : s.link.inRound = true) (result : SlotResult) :
    SameRound s (s.endSlot result) := by
  rcases s.link.afterSlot_cases s.settings with ⟨-, eq⟩ | ⟨-, eq⟩ <;>
    refine ⟨?_, ?_, ?_, rfl, rfl, rfl⟩ <;> rw [State.endSlot_link, eq]
  · exact round
  · exact id
  · rfl
  · exact id

/-- The change to FAULT returns what is in flight and leaves the link in OFF (R54, R72). -/
theorem linkWf_enterFault (s : State) : LinkWf s.enterFault :=
  linkWf_of_off rfl rfl rfl (Outbox.giveBack_flightEmpty _ _)

/-- A collision in a round keeps the laws: a first strike releases LDATA and leaves the round running, a second one
goes to OFF (R53, R54). -/
theorem linkWf_takeCollision {s : State} (h : LinkWf s) (round : s.link.inRound = true) (position : Nat) :
    LinkWf (s.takeCollision position) ∧
    ((s.takeCollision position).link.state = .off ∨ (s.takeCollision position).link.inRound = true) := by
  rcases s.takeCollision_cases position with ⟨-, eq⟩ | ⟨-, eq⟩ <;> rw [eq]
  · exact ⟨linkWf_of_sameRound h round ⟨round, rfl, fun held => (nomatch held), rfl, rfl, rfl⟩, .inr round⟩
  · exact ⟨linkWf_enterFault _, .inl rfl⟩

/-- A slot bit keeps the laws, and leaves a round running unless the station went to FAULT. -/
theorem linkWf_sampleSlotBit {s : State} (h : LinkWf s) (round : s.link.inRound = true) (ldata : Level) :
    LinkWf (s.sampleSlotBit ldata) := by
  have recorded := sameRound_recordBit round ldata
  have law := linkWf_of_sameRound h round recorded
  have compared : ∀ t : State, t = (if s.firstCollision ldata then
      (s.recordBit ldata).takeCollision (s.recordBit ldata).link.bit else s.recordBit ldata) →
      LinkWf t ∧ (t.link.state = .off ∨ t.link.inRound = true) := by
    rintro t rfl
    split
    · exact linkWf_takeCollision law recorded.round _
    · exact ⟨law, .inr recorded.round⟩
  obtain ⟨keeps, place⟩ := compared _ rfl
  rcases s.sampleSlotBit_cases ldata with eq | ⟨on, result, -, eq⟩ <;> rw [eq]
  · exact keeps
  · have runs := place.resolve_left on
    exact linkWf_of_sameRound keeps runs (sameRound_endSlot runs result)

/-- A rise of LBEAT keeps the laws (R29, R34, R37). -/
theorem linkWf_takeRise {s : State} (h : LinkWf s) (round : s.link.inRound = true) (ldata : Level) :
    LinkWf (s.takeRise ldata) := by
  rcases s.takeRise_cases ldata with ⟨-, eq⟩ | ⟨-, eq⟩ <;> rw [eq]
  · refine linkWf_sampleSlotBit ?_ ?_ ldata
    · exact linkWf_of_sameRound h round ⟨round, rfl, id, rfl, rfl, rfl⟩
    · exact round
  · exact linkWf_of_sameRound h round ⟨round, rfl, id, rfl, rfl, rfl⟩

/-- The rise of LMARK begins a round with every line released (R28). -/
theorem linkWf_enterSlots {s : State} (h : LinkWf s) (wait : s.link.state = .wait) :
    LinkWf { s with link := s.link.enterSlots s.settings, frame := s.frame.enterSlots } := by
  have aside := linkWf_not_standsAside (s := s) h (by simp [wait])
  obtain ⟨-, lmark, -, ldata, transmits, flight, -⟩ := h
  have released : s.link.holdLmark = false ∧ s.link.holdLdata = false := by simp_all [Link.inRound]
  obtain ⟨holdLmark, holdLdata⟩ := released
  rw [linkWf_iff_of_round rfl]
  exact ⟨aside, holdLmark, fun held => absurd (holdLdata.symm.trans held) (by decide),
    fun sends => (transmits sends).1, flight⟩

/-- What the station drives at a fall of LBEAT (R29, R36, R37). -/
theorem transmits_of_holdsNextBit {s : State} (holds : s.holdsNextBit = true) : s.transmits = true := by
  unfold State.holdsNextBit at holds
  unfold State.transmits
  cases sending : s.frame.sending with
  | some f => rfl
  | none => cases state : s.link.state <;> simp [sending, state] at holds

/-- An abort returns what is in flight and enters HOLD (R42). -/
theorem linkWf_abortRound {s : State} (h : LinkWf s) (round : s.link.inRound = true) (order : List NoticeBlock) :
    LinkWf (s.abortRound order) := by
  obtain ⟨aside, -⟩ := (linkWf_iff_of_round round).mp h
  exact linkWf_of_enterHold (State.abortRound_link s order) aside rfl (Outbox.giveBack_flightEmpty _ _)

/-- A close leaves nothing in flight: what was in flight is retired or returned (R69, R70). -/
theorem outboxAtClose_flightEmpty {s : State} (flight : s.outbox.flightEmpty = false → s.transmits = true)
    (cs : Option Half) : (s.outboxAtClose s.outcome cs).1.flightEmpty = true := by
  have transmitted : s.outcome.transmitted = s.transmits := rfl
  unfold State.outboxAtClose
  split
  · split
    · exact Outbox.retire_flightEmpty _
    · exact Outbox.giveBack_flightEmpty _ _
  · split
    · exact Outbox.giveBack_flightEmpty _ _
    · simp_all

/-- The outcome of a round leaves the station in HOLD with nothing sent or in flight (R39). -/
theorem linkWf_takeOutcome {s : State} (h : LinkWf s) (round : s.link.inRound = true) (order : List NoticeBlock) :
    LinkWf (s.takeOutcome order) := by
  obtain ⟨aside, -, -, -, flight⟩ := (linkWf_iff_of_round round).mp h
  obtain ⟨-, -, -, -, -, -, link, frame, member, -⟩ := s.takeOutcome_frame order
  refine linkWf_of_enterHold link (by rw [member]; exact aside) (by rw [State.transmits, frame]; rfl) ?_
  exact outboxAtClose_flightEmpty flight _

/-- In HOLD the station holds LMARK alone (R26, R39). -/
theorem linkWf_lines_of_hold {s : State} (h : LinkWf s) (hold : s.link.state = .hold) :
    s.link.holdLmark = true ∧ s.link.holdLbeat = false ∧ s.link.holdLdata = false := by
  obtain ⟨-, lmark, lbeat, ldata, -⟩ := h
  simp_all [Link.inRound]

/-- A change of station state at a close stays in HOLD or goes to OFF (R24, R80). -/
theorem linkWf_changeAtClose {s : State} (h : LinkWf s) (hold : s.link.state = .hold) (cause : Cause) :
    LinkWf (s.changeAtClose cause) := by
  obtain ⟨silent, flight⟩ := linkWf_silent h (by simp [hold]) (by simp [hold, Link.inRound])
  obtain ⟨holdLmark, holdLbeat, holdLdata⟩ := linkWf_lines_of_hold h hold
  cases cause with
  | foreignDigest | left => exact linkWf_of_off rfl rfl rfl flight
  | caughtUp | founded | joined | withdrawn =>
    refine linkWf_of_hold ?_ ?_ ?_ ?_ ?_ ?_ ?_ <;>
      simp [State.changeAtClose, State.enterJoining, State.foundTable, State.transmits, Membership.enterListen,
        standsAside, hold, holdLmark, holdLbeat, holdLdata, flight]
    all_goals simpa [State.transmits] using silent
  | setupCommitted | rejoined | duplicateNumber => exact h

theorem linkWf_closeRound {s : State} (h : LinkWf s) (round : s.link.inRound = true) (order : List NoticeBlock) :
    LinkWf (s.closeRound order) := by
  have taken := linkWf_takeOutcome h round order
  rcases s.closeRound_cases order with ⟨-, eq⟩ | ⟨cause, -, eq⟩ <;> rw [eq]
  · exact taken
  · exact linkWf_changeAtClose taken rfl cause

/-! ### Every command -/

theorem linkWf_execSyncLmarkFall {s : State} (h : LinkWf s) : Leads LinkWf (execSyncLmarkFall s) :=
  leads_ite (fun sync => (leads_next _ _).mpr (linkWf_enterHold_of_sync h sync _)) (fun _ => (leads_next _ _).mpr h)

theorem linkWf_execSyncLbeatChange {s : State} (h : LinkWf s) : Leads LinkWf (execSyncLbeatChange s) :=
  leads_ite (fun _ => (leads_next _ _).mpr (linkWf_of_sameLines h _ rfl rfl rfl rfl)) (fun _ => (leads_next _ _).mpr h)

theorem linkWf_execQuietTimerExpiry {s : State} (h : LinkWf s) : Leads LinkWf (execQuietTimerExpiry s) := by
  refine leads_ite (fun ⟨sync, _⟩ => ?_) (fun _ => (leads_next _ _).mpr h)
  split <;> rw [leads_next]
  · exact linkWf_enterHold_of_sync h sync _
  · exact linkWf_of_sameLines h _ rfl rfl rfl rfl

theorem linkWf_execRoundTimerExpiry {s : State} (h : LinkWf s) : Leads LinkWf (execRoundTimerExpiry s) :=
  leads_ite (fun ⟨hold, _⟩ => (leads_next _ _).mpr (linkWf_compose h hold _)) (fun _ => (leads_next _ _).mpr h)

theorem linkWf_execStallTimerExpiry {s : State} (h : LinkWf s) : Leads LinkWf (execStallTimerExpiry s) := by
  refine leads_ite (fun _ => (leads_next _ _).mpr ?_) (fun _ => (leads_next _ _).mpr h)
  have stalled := linkWf_of_sameLines h { s.link with stalled := true, stallTimer := none } rfl rfl rfl rfl
  exact linkWf_of_sameLink stalled ⟨rfl, rfl, rfl, rfl⟩

theorem linkWf_execWaitLmarkRise {s : State} (h : LinkWf s) : Leads LinkWf (execWaitLmarkRise s) := by
  refine leads_ite (fun wait => (leads_next _ _).mpr ?_) (fun _ => (leads_next _ _).mpr h)
  exact linkWf_of_sameLink (linkWf_enterSlots h wait) ⟨rfl, rfl, rfl, rfl⟩

theorem linkWf_execLbeatHalfPeriodExpiry {s : State} (h : LinkWf s) : Leads LinkWf (execLbeatHalfPeriodExpiry s) := by
  refine leads_ite (fun round => ?_) (fun _ => (leads_next _ _).mpr h)
  split <;> rw [leads_next]
  case h_3 => exact h
  all_goals exact linkWf_of_sameRound h round ⟨round, rfl, id, rfl, rfl, rfl⟩

/-- A fall of LBEAT makes only a station that transmits hold LDATA (R31, R36, R37). -/
theorem linkWf_execLbeatFall {s : State} (h : LinkWf s) : Leads LinkWf (execLbeatFall s) := by
  refine leads_ite (fun ⟨round, _⟩ => (leads_next _ _).mpr ?_) (fun _ => (leads_next _ _).mpr h)
  obtain ⟨aside, lmark, -, valid, flight⟩ := (linkWf_iff_of_round round).mp h
  refine (linkWf_iff_of_round ?_).mpr ⟨aside, lmark, transmits_of_holdsNextBit (s := s), valid, flight⟩
  exact round

theorem inRound_of_riseCanCome {l : Link} (rise : l.riseCanCome = true) : l.inRound = true :=
  (l.inRound_iff).mpr ((l.riseCanCome_iff).mp rise).1

theorem linkWf_execLbeatRise {s : State} (h : LinkWf s) (ldata : Level) : Leads LinkWf (execLbeatRise ldata s) :=
  leads_ite (fun ⟨rise, _⟩ => (leads_next _ _).mpr (linkWf_takeRise h (inRound_of_riseCanCome rise) ldata))
    (fun _ => (leads_next _ _).mpr h)

theorem linkWf_execOwnFrameSent {s : State} (h : LinkWf s) (ldata : Level) : Leads LinkWf (execOwnFrameSent ldata s) :=
  leads_ite (fun ⟨rise, _⟩ => (leads_next _ _).mpr (linkWf_takeRise h (inRound_of_riseCanCome rise) ldata))
    (fun _ => (leads_next _ _).mpr h)

theorem linkWf_execFrameReceived {s : State} (h : LinkWf s) (ldata : Level) :
    Leads LinkWf (execFrameReceived ldata s) :=
  leads_ite (fun ⟨rise, _⟩ => (leads_next _ _).mpr (linkWf_takeRise h (inRound_of_riseCanCome rise) ldata))
    (fun _ => (leads_next _ _).mpr h)

/-- The last verdict bit leaves the round running until the close takes its outcome (R38, R39). -/
theorem inRound_takeRise_of_verdict {s : State} (verdict : s.link.state = .verdict) (ldata : Level) :
    (s.takeRise ldata).link.inRound = true := by
  rcases s.takeRise_cases ldata with ⟨slots, -⟩ | ⟨-, eq⟩
  · simp [verdict] at slots
  · rw [eq, Link.inRound_iff]
    exact .inr verdict

theorem linkWf_execRoundClose {s : State} (h : LinkWf s) (ldata : Level) (order : List NoticeBlock) :
    Leads LinkWf (execRoundClose ldata order s) := by
  refine leads_ite (fun ⟨rise, last⟩ => (leads_next _ _).mpr ?_) (fun _ => (leads_next _ _).mpr h)
  have verdict : s.link.state = .verdict := by simp_all [State.atLastVerdict]
  exact linkWf_closeRound (linkWf_takeRise h (inRound_of_riseCanCome rise) ldata)
    (inRound_takeRise_of_verdict verdict ldata) order

theorem linkWf_execLmarkFallInRound {s : State} (h : LinkWf s) (order : List NoticeBlock) :
    Leads LinkWf (execLmarkFallInRound order s) :=
  leads_ite (fun round => (leads_next _ _).mpr (linkWf_abortRound h round order)) (fun _ => (leads_next _ _).mpr h)

theorem linkWf_execBeatStuckExpiry {s : State} (h : LinkWf s) (order : List NoticeBlock) :
    Leads LinkWf (execBeatStuckExpiry order s) :=
  leads_ite (fun ⟨round, _⟩ => (leads_next _ _).mpr (linkWf_abortRound h round order)) (fun _ => (leads_next _ _).mpr h)

theorem linkWf_execResetPinFall {s : State} (h : LinkWf s) : Leads LinkWf (execResetPinFall s) := by
  unfold execResetPinFall
  split <;> rw [leads_next]
  · exact linkWf_blocksReset s _ _
  · exact h

theorem linkWf_takeRequest {s : State} {code : Byte} {operands : List Byte} {effect : State → State × Answer}
    (h : LinkWf s) (done : LinkWf (effect s).1) : Leads LinkWf (takeRequest code operands effect s) :=
  leads_takeRequest h (fun _ _ ht => linkWf_of_sameLink ht ⟨rfl, rfl, rfl, rfl⟩) done

/-- Every command keeps the laws: it leaves the tally link as it is, or is one of its own events. -/
theorem linkWf_exec {s : State} (h : LinkWf s) (c : Instr) : Leads LinkWf (exec c s) := by
  have keeps : ∀ {outcome}, Leads (SameLink s) outcome → Leads LinkWf outcome := fun same =>
    same.mono fun _ => linkWf_of_sameLink h
  cases c with
  | powerOnReset => exact (leads_next _ _).mpr (linkWf_blocksReset s [] .powerOn)
  | resetPinFall => exact linkWf_execResetPinFall h
  | resetEnd fmt1 fmt0 => exact keeps (execResetEnd_sameLink fmt1 fmt0 s)
  | tselFall fall => exact keeps (execTselFall_sameLink fall s)
  | tselRise => exact keeps (execTselRise_sameLink s)
  | unknown code => exact keeps (execUnknown_sameLink code s)
  | status | readEntry | readOutbox | readRoster | takeNotice | readSnapshot | setupRead =>
    exact keeps leads_reading_sameLink
  | takeNoticeDelivered => exact keeps (execTakeNoticeDelivered_sameLink s)
  | releaseSnapshot => exact keeps (leads_request_sameLink (sameLink_releaseSnapshot s))
  | freeze => exact keeps (leads_request_sameLink (sameLink_requestFreeze s))
  | zero entry =>
    exact keeps (leads_request_sameLink (effect := fun t => t.requestZero entry) (sameLink_requestZero s entry))
  | adjust entry amount =>
    exact keeps (leads_request_sameLink (effect := fun t => t.requestAdjust entry amount)
      (sameLink_requestAdjust s entry amount))
  | setOutput output level =>
    exact keeps (leads_request_sameLink (effect := fun t => t.requestOutput output level)
      (sameLink_requestOutput s output level))
  | leave => exact keeps (leads_request_sameLink (sameLink_requestLeave s))
  | rejoin lmark lbeat =>
    exact linkWf_takeRequest (effect := fun t => t.requestRejoin lmark lbeat) h (linkWf_requestRejoin h lmark lbeat)
  | setupWrite offset length data => exact keeps (execSetupWrite_sameLink offset length data s)
  | setupCommit lmark lbeat =>
    exact linkWf_takeRequest (effect := fun t => t.requestCommit lmark lbeat) h (linkWf_requestCommit h lmark lbeat)
  | syncLmarkFall => exact linkWf_execSyncLmarkFall h
  | syncLbeatChange => exact linkWf_execSyncLbeatChange h
  | quietTimerExpiry => exact linkWf_execQuietTimerExpiry h
  | roundTimerExpiry => exact linkWf_execRoundTimerExpiry h
  | stallTimerExpiry => exact linkWf_execStallTimerExpiry h
  | waitLmarkRise => exact linkWf_execWaitLmarkRise h
  | lbeatHalfPeriodExpiry => exact linkWf_execLbeatHalfPeriodExpiry h
  | ownFrameSent ldata => exact linkWf_execOwnFrameSent h ldata
  | frameReceived ldata => exact linkWf_execFrameReceived h ldata
  | roundClose ldata order => exact linkWf_execRoundClose h ldata order
  | lmarkFallInRound order => exact linkWf_execLmarkFallInRound h order
  | beatStuckExpiry order => exact linkWf_execBeatStuckExpiry h order
  | sampleInstant levels order => exact keeps (execSampleInstant_sameLink levels order s)
  | passageTimerExpiry pair => exact keeps (execPassageTimerExpiry_sameLink pair s)
  | pulseTimerExpiry output => exact keeps (execPulseTimerExpiry_sameLink output s)
  | lbeatFall => exact linkWf_execLbeatFall h
  | lbeatRise ldata => exact linkWf_execLbeatRise h ldata
  | tclkSamplingEdge tdi elapsed => exact keeps (execTclkSamplingEdge_sameLink tdi elapsed s)

/-- Settles O57: a step is one command, or time in which only the tap moves. -/
theorem everyStepKeepsLinkDiscipline : Obligations.EveryStepKeepsLinkDiscipline := by
  unfold Obligations.EveryStepKeepsLinkDiscipline
  intro s t h stepped
  unfold step at stepped
  split at stepped
  · exact Host.Outcome.next.inj stepped ▸ linkWf_of_sameLink h (sameLink_idle s)
  · next c rest _ =>
    have queued : LinkWf { s with pending := rest } := linkWf_of_sameLink h ⟨rfl, rfl, rfl, rfl⟩
    exact linkWf_exec queued c t stepped

end Sys2Proof.Machine

namespace Sys2Proof.Machine

open Sys2Proof.Safety

/-! ### The barrier and the wait -/

theorem enterHold_eq_inBarrier (s : State) : s.link.enterHold s.settings.roundInterval = inBarrier s s.link := rfl

/-- Settles O23: each of the three events of SYNC by its one test of the state. -/
theorem syncFindsBoundary : Obligations.SyncFindsBoundary := by
  unfold Obligations.SyncFindsBoundary
  intro s sync
  refine ⟨if_pos sync, if_pos sync, fun running high => ?_, fun running low => ?_⟩
  · show execQuietTimerExpiry s = _
    simp only [execQuietTimerExpiry, if_pos (And.intro sync running), high, enterHold_eq_inBarrier]
  · show execQuietTimerExpiry s = _
    simp only [execQuietTimerExpiry, if_pos (And.intro sync running), low]
    rfl

/-- Settles O26: the stall limit and the rise of LMARK in WAIT. -/
theorem waitStallsAndResumes : Obligations.WaitStallsAndResumes := by
  unfold Obligations.WaitStallsAndResumes
  intro s wait
  refine ⟨fun running => if_pos ⟨wait, running⟩, ?_⟩
  show execWaitLmarkRise s = _
  rw [execWaitLmarkRise, if_pos wait]
  cases s.link.stalled <;> rfl

/-! ### The bit clock -/

/-- The level of a position of a frame is low exactly where the slot in which it is sent is (R52). -/
theorem Frame.levelAt_eq_low (f : Frame) (bit : Nat) : f.levelAt (bit + 1) = .low ↔ f.levels[bit]? = some .low := by
  rw [Frame.levelAt, Nat.add_sub_cancel]
  cases f.levels[bit]? <;> simp

/-- What a station holds for the next bit: a low bit of its own frame before any collision, or its own verdict bit when
it objects (R31, R36, R37, R53). -/
theorem State.holdsNextBit_iff (s : State) : s.holdsNextBit = true ↔
    (∃ f, s.frame.sending = some f ∧ s.link.state = .slots ∧ s.link.slot = s.settings.stationNumber ∧
      s.frame.collided = false ∧ f.levels[s.link.bit]? = some .low) ∨
    (s.frame.sending.isSome = true ∧ s.link.state = .verdict ∧
      s.link.verdicts.length = s.settings.stationNumber ∧ s.frame.object = true) := by
  unfold State.holdsNextBit
  cases state : s.link.state <;> cases sending : s.frame.sending <;>
    simp [Frame.levelAt_eq_low, and_assoc]

/-- Settles O27: the two waits of a half-period, and what a fall of LBEAT drives. -/
theorem bitClockDrivesLines : Obligations.BitClockDrivesLines := by
  unfold Obligations.BitClockDrivesLines
  refine ⟨fun s place => ?_, fun s place high => ⟨s.holdsNextBit, ?_, s.holdsNextBit_iff⟩⟩
  · have round := (s.link.inRound_iff).mpr place
    refine ⟨fun half => ?_, fun half => ?_⟩ <;> show execLbeatHalfPeriodExpiry s = _ <;>
      simp only [execLbeatHalfPeriodExpiry, if_pos round, half]
  · exact if_pos ⟨(s.link.inRound_iff).mpr place, high⟩

/-! ### One bit of a slot -/

theorem State.slotBits_zero {s : State} (first : s.link.bit = 0) (ldata : Level) : s.slotBits ldata = [ldata] :=
  if_pos first

theorem State.slotBits_foreign {s : State} (later : 1 ≤ s.link.bit) (foreign : s.inOwnSlot = false) (ldata : Level) :
    s.slotBits ldata = s.frame.receiving ++ [ldata] := by
  simp [State.slotBits, foreign, Nat.ne_of_gt later]

theorem State.slotBits_own {s : State} (later : 1 ≤ s.link.bit) (own : s.inOwnSlot = true) (ldata : Level) :
    s.slotBits ldata = s.frame.readback ++ [ldata] := by
  simp [State.slotBits, own, Nat.ne_of_gt later]

theorem State.lengthAfter_zero {s : State} (first : s.link.bit = 0) (ldata : Level) : s.lengthAfter ldata = none :=
  if_pos first

/-- The length of another station's slot is the one known, or the one that the counts now read give (R35). -/
theorem State.lengthAfter_foreign {s : State} (later : 1 ≤ s.link.bit) (foreign : s.inOwnSlot = false) (ldata : Level) :
    s.lengthAfter ldata = s.link.slotLength.or (slotLengthRead ((s.frame.receiving ++ [ldata]).map Level.bit)) := by
  rw [State.lengthAfter, if_neg (by omega), State.slotBits_foreign later foreign]
  cases s.link.slotLength <;> rfl

/-- The length of the own slot is found in the same way, from what is read back (R35, R52). -/
theorem State.lengthAfter_own {s : State} (later : 1 ≤ s.link.bit) (own : s.inOwnSlot = true) (ldata : Level) :
    s.lengthAfter ldata = s.link.slotLength.or (slotLengthRead ((s.frame.readback ++ [ldata]).map Level.bit)) := by
  rw [State.lengthAfter, if_neg (by omega), State.slotBits_own later own]
  cases s.link.slotLength <;> rfl

/-- A presence bit recorded in the own slot begins its readback (R52). -/
theorem State.recordBit_own_first {s : State} (own : s.inOwnSlot = true) (first : s.link.bit = 0) (ldata : Level) :
    s.recordBit ldata = { s with
      frame := { s.frame with readback := [ldata] }
      link := { s.link with
        bit := 1, slotLength := none, presence := s.link.presence ++ [decide (ldata = .low)] } } := by
  simp [State.recordBit, own, first, State.slotBits_zero, State.lengthAfter_zero]

/-- A later bit recorded in the own slot joins its readback (R52). -/
theorem State.recordBit_own_later {s : State} (own : s.inOwnSlot = true) (later : 1 ≤ s.link.bit) (ldata : Level) :
    s.recordBit ldata = { s with
      frame := { s.frame with readback := s.frame.readback ++ [ldata] }
      link := { s.link with bit := s.link.bit + 1, slotLength := s.lengthAfter ldata } } := by
  simp [State.recordBit, own, State.slotBits_own later own, Nat.ne_of_gt later]

/-- A presence bit recorded outside the own slot begins the frame being received (R56). -/
theorem State.recordBit_foreign_first {s : State} (foreign : s.inOwnSlot = false) (first : s.link.bit = 0)
    (ldata : Level) : s.recordBit ldata = { s with
      frame := { s.frame with receiving := [ldata] }
      link := { s.link with
        bit := 1, slotLength := none, presence := s.link.presence ++ [decide (ldata = .low)] } } := by
  simp [State.recordBit, foreign, first, State.slotBits_zero, State.lengthAfter_zero]

/-- A later bit recorded outside the own slot joins the frame being received (R56). -/
theorem State.recordBit_foreign_later {s : State} (foreign : s.inOwnSlot = false) (later : 1 ≤ s.link.bit)
    (ldata : Level) : s.recordBit ldata = { s with
      frame := { s.frame with receiving := s.frame.receiving ++ [ldata] }
      link := { s.link with bit := s.link.bit + 1, slotLength := s.lengthAfter ldata } } := by
  simp [State.recordBit, foreign, State.slotBits_foreign later foreign, Nat.ne_of_gt later]

theorem State.inOwnSlot_recordBit (s : State) (ldata : Level) : (s.recordBit ldata).inOwnSlot = s.inOwnSlot := by
  unfold State.recordBit State.inOwnSlot State.transmits
  dsimp only
  split <;> rfl

/-- A presence bit sampled high ends its slot (R34). -/
theorem State.slotEnded_silent {s : State} (first : s.link.bit = 0) (foreign : s.inOwnSlot = false) :
    (s.recordBit .high).slotEnded = some .silent := by
  have own := s.inOwnSlot_recordBit .high
  simp only [State.slotEnded, own, foreign]
  simp [State.recordBit, first]

/-- A presence bit sampled low begins a frame, whose length is not known (R34, R35). -/
theorem State.slotEnded_begins {s : State} (first : s.link.bit = 0) : (s.recordBit .low).slotEnded = none := by
  simp [State.slotEnded, State.recordBit, first, State.lengthAfter_zero]

/-- A later bit that does not reach the length of the slot leaves it open (R35). -/
theorem State.slotEnded_open {s : State} (later : 1 ≤ s.link.bit) {ldata : Level}
    (short : s.lengthAfter ldata ≠ some (s.link.bit + 1)) : (s.recordBit ldata).slotEnded = none := by
  simp [State.slotEnded, State.recordBit, Nat.ne_of_gt later, short]

/-- The last bit of another station's slot gives its reception result (R56). -/
theorem State.slotEnded_foreign {s : State} (later : 1 ≤ s.link.bit) (foreign : s.inOwnSlot = false) {ldata : Level}
    (last : s.lengthAfter ldata = some (s.link.bit + 1)) : (s.recordBit ldata).slotEnded =
      some (receive s.settings s.setup.digest s.link.slot ((s.slotBits ldata).map Level.bit)) := by
  have own := s.inOwnSlot_recordBit ldata
  simp only [State.slotEnded, own, foreign]
  simp [State.recordBit, foreign, Nat.ne_of_gt later, last]
  rfl

/-- The last bit of the own slot gives the result OWN with the collision mark (R52, R53). -/
theorem State.slotEnded_own {s : State} (later : 1 ≤ s.link.bit) (own : s.inOwnSlot = true) {ldata : Level}
    (last : s.lengthAfter ldata = some (s.link.bit + 1)) :
    (s.recordBit ldata).slotEnded = some (.own s.frame.collided) := by
  have same := s.inOwnSlot_recordBit ldata
  simp only [State.slotEnded, same, own]
  simp [State.recordBit, own, Nat.ne_of_gt later, last]

theorem State.recordBit_on {s : State} (slots : s.link.state = .slots) (ldata : Level) :
    (s.recordBit ldata).link.state ≠ .off := by
  simp [State.recordBit, slots]

/-- A bit without a collision that ends no slot is recorded, and nothing else. -/
theorem State.sampleSlotBit_open {s : State} (slots : s.link.state = .slots) {ldata : Level}
    (clean : s.firstCollision ldata = false) (stays : (s.recordBit ldata).slotEnded = none) :
    s.sampleSlotBit ldata = s.recordBit ldata := by
  simp [State.sampleSlotBit, clean, State.recordBit_on slots, stays]

/-- A bit without a collision that ends a slot is recorded, and its result taken. -/
theorem State.sampleSlotBit_ended {s : State} (slots : s.link.state = .slots) {ldata : Level} {result : SlotResult}
    (clean : s.firstCollision ldata = false) (ends : (s.recordBit ldata).slotEnded = some result) :
    s.sampleSlotBit ldata = (s.recordBit ldata).endSlot result := by
  simp [State.sampleSlotBit, clean, State.recordBit_on slots, ends]

/-- A silent slot calls for no objection and no notice (R59, R60). -/
theorem State.endSlot_silent (s : State) : s.endSlot .silent = { s with
    link := s.link.afterSlot s.settings, frame := { s.frame with results := s.frame.results ++ [.silent] } } := by
  simp [State.endSlot, objectsTo, State.divergence, State.postAll]

/-- The end of the own slot calls for an objection after a collision (R53, R59). -/
theorem State.endSlot_own {s : State} (sends : s.transmits = true) (collided : Bool) :
    s.endSlot (.own collided) = { s with
      link := s.link.afterSlot s.settings
      frame := { s.frame with
        results := s.frame.results ++ [.own collided], object := s.frame.object || collided } } := by
  simp [State.endSlot, objectsTo, State.divergence, State.postAll, sends]

/-! ### One rise of LBEAT -/

theorem riseCanCome_of_risesIn_slots {s : State} (rises : risesIn .slots s) : s.link.riseCanCome = true :=
  (s.link.riseCanCome_iff).mpr ⟨.inl rises.1, rises.2⟩

theorem inOwnSlot_iff (s : State) :
    s.inOwnSlot = true ↔ s.transmits = true ∧ s.link.slot = s.settings.stationNumber := by
  simp [State.inOwnSlot]

/-- The station once a rise has been taken, before the bit sampled acts (R29). -/
def State.afterRise (s : State) : State := { s with link := risen s }

/-- A rise in SLOTS samples a slot bit, once the rise itself has been taken (R29). -/
theorem takeRise_of_slots {s : State} (slots : s.link.state = .slots) (ldata : Level) :
    s.takeRise ldata = s.afterRise.sampleSlotBit ldata := if_pos slots

theorem firstCollision_of_foreign {s : State} (foreign : s.inOwnSlot = false) (ldata : Level) :
    s.firstCollision ldata = false := by
  simp [State.firstCollision, foreign]

/-- A bit of the own slot that comes after a collision, or is as driven, is no first collision (R52, R53). -/
theorem firstCollision_of_agrees {s : State} {ldata : Level}
    (agrees : s.frame.collided = true ∨ (s.link.holdLdata = true ↔ ldata = .low)) : s.firstCollision ldata = false := by
  have := s.link.collides_iff ldata
  rcases agrees with collided | drives
  · simp [State.firstCollision, collided]
  · simp [State.firstCollision, (Bool.not_eq_true _).mp fun collides => this.mp collides drives]

theorem atLastVerdict_of_slots {s : State} (slots : s.link.state = .slots) : s.atLastVerdict = false := by
  simp [State.atLastVerdict, slots]

theorem endsPresentSlot_of_slots {s : State} (slots : s.link.state = .slots) (ldata : Level) :
    s.endsPresentSlot ldata = decide (s.lengthAfter ldata = some (s.link.bit + 1)) := by
  simp [State.endsPresentSlot, slots]

/-- LBEAT_RISE takes every rise in SLOTS but the one that ends a present slot (entries 4 and 12). -/
theorem execLbeatRise_of_slots {s : State} (rises : risesIn .slots s) (ldata : Level) :
    execLbeatRise ldata s =
      if s.lengthAfter ldata = some (s.link.bit + 1) then .next s else .next (s.takeRise ldata) := by
  simp only [execLbeatRise, riseCanCome_of_risesIn_slots rises, endsPresentSlot_of_slots rises.1,
    atLastVerdict_of_slots rises.1]
  split <;> simp_all

theorem execOwnFrameSent_of_own {s : State} (rises : risesIn .slots s) (own : s.inOwnSlot = true) (ldata : Level) :
    execOwnFrameSent ldata s = .next (s.takeRise ldata) :=
  if_pos ⟨riseCanCome_of_risesIn_slots rises, rises.1, own⟩

theorem execFrameReceived_of_foreign {s : State} (rises : risesIn .slots s) (foreign : s.inOwnSlot = false)
    {ldata : Level} (last : s.lengthAfter ldata = some (s.link.bit + 1)) :
    execFrameReceived ldata s = .next (s.takeRise ldata) :=
  if_pos ⟨riseCanCome_of_risesIn_slots rises, by simp [endsPresentSlot_of_slots rises.1, last], foreign⟩

section
variable {s : State} {ldata : Level}

/-- A rise without a collision that ends no slot records its bit. -/
theorem takeRise_open (slots : s.link.state = .slots) (clean : s.firstCollision ldata = false)
    (stays : (s.afterRise.recordBit ldata).slotEnded = none) : s.takeRise ldata = s.afterRise.recordBit ldata :=
  (takeRise_of_slots slots ldata).trans (State.sampleSlotBit_open (s := s.afterRise) slots clean stays)

/-- A rise without a collision that ends a slot records its bit and takes the result. -/
theorem takeRise_ended {result : SlotResult} (slots : s.link.state = .slots) (clean : s.firstCollision ldata = false)
    (ends : (s.afterRise.recordBit ldata).slotEnded = some result) :
    s.takeRise ldata = (s.afterRise.recordBit ldata).endSlot result :=
  (takeRise_of_slots slots ldata).trans (State.sampleSlotBit_ended (s := s.afterRise) slots clean ends)

/-- A rise that begins another station's frame (R34, R56). -/
theorem takeRise_foreign_begins (slots : s.link.state = .slots) (foreign : s.inOwnSlot = false)
    (first : s.link.bit = 0) : s.takeRise .low = { s with
      link := { risen s with bit := 1, slotLength := none, presence := s.link.presence ++ [true] }
      frame := { s.frame with receiving := [.low] } } := by
  rw [takeRise_open slots (firstCollision_of_foreign foreign _) (State.slotEnded_begins (s := s.afterRise) first),
    State.recordBit_foreign_first (s := s.afterRise) foreign first]
  rfl

/-- A rise that samples a silent slot (R34). -/
theorem takeRise_foreign_silent (slots : s.link.state = .slots) (foreign : s.inOwnSlot = false)
    (first : s.link.bit = 0) : s.takeRise .high = { s with
      link := nextSlot s.settings { risen s with bit := 1, slotLength := none, presence := s.link.presence ++ [false] }
      frame := { s.frame with receiving := [.high], results := s.frame.results ++ [.silent] } } := by
  rw [takeRise_ended slots (firstCollision_of_foreign foreign _)
    (State.slotEnded_silent (s := s.afterRise) first foreign), State.endSlot_silent,
    State.recordBit_foreign_first (s := s.afterRise) foreign first]
  rfl

/-- A rise within another station's frame (R56). -/
theorem takeRise_foreign_open (slots : s.link.state = .slots) (foreign : s.inOwnSlot = false)
    (later : 1 ≤ s.link.bit) (short : s.lengthAfter ldata ≠ some (s.link.bit + 1)) : s.takeRise ldata = { s with
      link := { risen s with bit := s.link.bit + 1, slotLength := s.lengthAfter ldata }
      frame := { s.frame with receiving := s.frame.receiving ++ [ldata] } } := by
  rw [takeRise_open slots (firstCollision_of_foreign foreign _)
    (State.slotEnded_open (s := s.afterRise) later short),
    State.recordBit_foreign_later (s := s.afterRise) foreign later]
  rfl

/-- The rise that begins the own slot, its presence bit as driven (R52). -/
theorem takeRise_own_begins (slots : s.link.state = .slots) (own : s.inOwnSlot = true) (first : s.link.bit = 0)
    (clean : s.firstCollision .low = false) : s.takeRise .low = { s with
      link := { risen s with bit := 1, slotLength := none, presence := s.link.presence ++ [true] }
      frame := { s.frame with readback := [.low] } } := by
  rw [takeRise_open slots clean (State.slotEnded_begins (s := s.afterRise) first),
    State.recordBit_own_first (s := s.afterRise) own first]
  rfl

/-- A rise within the own slot (R52). -/
theorem takeRise_own_open (slots : s.link.state = .slots) (own : s.inOwnSlot = true) (later : 1 ≤ s.link.bit)
    (clean : s.firstCollision ldata = false) (short : s.lengthAfter ldata ≠ some (s.link.bit + 1)) :
    s.takeRise ldata = { s with
      link := { risen s with bit := s.link.bit + 1, slotLength := s.lengthAfter ldata }
      frame := { s.frame with readback := s.frame.readback ++ [ldata] } } := by
  rw [takeRise_open slots clean (State.slotEnded_open (s := s.afterRise) later short),
    State.recordBit_own_later (s := s.afterRise) own later]
  rfl

/-- The rise that ends the own slot: the result OWN with the collision mark, which makes the station object (R52,
R59). -/
theorem takeRise_own_ends (slots : s.link.state = .slots) (own : s.inOwnSlot = true) (later : 1 ≤ s.link.bit)
    (clean : s.firstCollision ldata = false) (last : s.lengthAfter ldata = some (s.link.bit + 1)) :
    s.takeRise ldata = { s with
      link := nextSlot s.settings { risen s with bit := s.link.bit + 1, slotLength := s.lengthAfter ldata }
      frame := { s.frame with
        readback := s.frame.readback ++ [ldata], results := s.frame.results ++ [.own s.frame.collided]
        object := s.frame.object || s.frame.collided } } := by
  have sends : (s.afterRise.recordBit ldata).transmits = true :=
    ((inOwnSlot_iff _).mp ((State.inOwnSlot_recordBit s.afterRise ldata).trans own)).1
  rw [takeRise_ended slots clean (State.slotEnded_own (s := s.afterRise) later own last), State.endSlot_own sends,
    State.recordBit_own_later (s := s.afterRise) own later]
  rfl

/-- The rise that ends another station's present slot: its reception result, the objection and DIVERGED (R56, R59,
R60). -/
theorem takeRise_foreign_ends (slots : s.link.state = .slots) (foreign : s.inOwnSlot = false) (later : 1 ≤ s.link.bit)
    (last : s.lengthAfter ldata = some (s.link.bit + 1)) {result : SlotResult}
    (received : receive s.settings s.setup.digest s.link.slot ((s.frame.receiving ++ [ldata]).map Level.bit) = result) :
    s.takeRise ldata = { s with
      link := nextSlot s.settings { risen s with bit := s.link.bit + 1, slotLength := s.lengthAfter ldata }
      frame := { s.frame with
        receiving := s.frame.receiving ++ [ldata], results := s.frame.results ++ [result]
        object := s.frame.object || (s.transmits && objectsTo s.settings s.replica result) }
      notices := postAllTo s.notices (s.divergence result) } := by
  have ended := State.slotEnded_foreign (s := s.afterRise) later foreign last
  rw [State.slotBits_foreign (s := s.afterRise) later foreign] at ended
  rw [takeRise_ended slots (firstCollision_of_foreign foreign _) (ended.trans (congrArg some received)),
    State.recordBit_foreign_later (s := s.afterRise) foreign later]
  rfl

end

/-- A reception gives a valid frame or an invalid one (R57, R58). -/
theorem receive_cases (m : Record) (digest : Byte) (slot : Nat) (bits : List Bool) :
    receive m digest slot bits = .invalid ∨ ∃ f foreign, receive m digest slot bits = .valid f foreign := by
  unfold receive
  dsimp only
  split
  · exact .inr ⟨_, _, rfl⟩
  · exact .inl rfl

/-! ### The statements on one rise -/

/-- A transmitting station in its own slot, as the statements put it. -/
theorem inOwnSlot_eq_false {s : State} (h : ¬(s.transmits = true ∧ s.link.slot = s.settings.stationNumber)) :
    s.inOwnSlot = false := by
  rw [← inOwnSlot_iff] at h
  exact (Bool.not_eq_true _).mp h

/-- Settles O29: the own slot's first bit, a later one, and its last. -/
theorem ownSlotReadsBack : Obligations.OwnSlotReadsBack := by
  unfold Obligations.OwnSlotReadsBack
  intro s ldata rises sends slot agrees
  have own := (inOwnSlot_iff s).mpr ⟨sends, slot⟩
  have clean := firstCollision_of_agrees agrees
  have taken : exec (.ownFrameSent ldata) s = .next (s.takeRise ldata) := execOwnFrameSent_of_own rises own ldata
  rw [taken]
  refine ⟨fun first low => ?_, fun later => ?_⟩
  · subst low
    rw [takeRise_own_begins rises.1 own first clean]
  · intro bits length
    have known : s.lengthAfter ldata = length := by
      rw [State.lengthAfter_own later own]
      cases h : s.link.slotLength <;> simp only [length, bits, h] <;> rfl
    clear_value length
    subst known
    exact ⟨fun short => congrArg _ (takeRise_own_open rises.1 own later clean short),
      fun last => congrArg _ (takeRise_own_ends rises.1 own later clean last)⟩

/-- Settles O31: the slot ended by its last bit, the objection and the notice by the four kinds of result. -/
theorem frameReceivedJudgesSender : Obligations.FrameReceivedJudgesSender := by
  unfold Obligations.FrameReceivedJudgesSender
  intro s ldata rises notOwn later bits length result failed last
  have foreign := inOwnSlot_eq_false notOwn
  have known : s.lengthAfter ldata = length := by
    rw [State.lengthAfter_foreign later foreign]
    cases h : s.link.slotLength <;> simp only [length, bits, h] <;> rfl
  clear_value length
  subst known
  have received := execFrameReceived_of_foreign rises foreign last
  rw [takeRise_foreign_ends rises.1 foreign later last rfl] at received
  refine received.trans ?_
  have kinds := receive_cases s.settings s.setup.digest s.link.slot (bits.map Level.bit)
  change result = .invalid ∨ ∃ f foreign, result = .valid f foreign at kinds
  change Host.Outcome.next { s with
    link := _
    frame := { s.frame with
      receiving := _, results := s.frame.results ++ [result]
      object := s.frame.object || (s.transmits && objectsTo s.settings s.replica result) }
    notices := postAllTo s.notices (s.divergence result) } = _
  clear_value result
  rcases kinds with rfl | ⟨f, mark, rfl⟩
  · rfl
  · cases mark with
    | true => rfl
    | false =>
      have differs : comparisonsFailed s.settings s.replica f = failed f := rfl
      simp only [objectsTo, State.divergence, differs, Bool.false_or, Bool.and_eq_true, decide_eq_true_eq]
      by_cases diverges : s.transmits = true ∧ failed f ≠ 0
      · simp only [if_pos diverges]
        rfl
      · simp only [if_neg diverges]
        rfl

/-- A rise that samples a verdict bit other than the last (R37, R38). -/
theorem execLbeatRise_of_verdict {s : State} (rises : risesIn .verdict s)
    (more : s.link.verdicts.length + 1 < s.settings.clusterSize) (ldata : Level) :
    execLbeatRise ldata s = .next { s with link := { risen s with verdicts := s.link.verdicts ++ [ldata] } } := by
  obtain ⟨verdict, low, released⟩ := rises
  have rise := (s.link.riseCanCome_iff).mpr ⟨.inr verdict, low, released⟩
  have notLast : s.atLastVerdict = false := by simp [State.atLastVerdict, verdict, more]
  have notSlot : s.endsPresentSlot ldata = false := by simp [State.endsPresentSlot, verdict]
  rw [execLbeatRise, if_pos ⟨rise, notSlot, notLast⟩, State.takeRise, if_neg (by simp [verdict])]
  rfl

/-- Settles O28: a rise by the bit that it samples. -/
theorem lbeatRiseSamplesOneBit : Obligations.LbeatRiseSamplesOneBit := by
  unfold Obligations.LbeatRiseSamplesOneBit
  intro s ldata
  refine ⟨fun rises more => execLbeatRise_of_verdict rises more ldata, fun rises notOwn => ?_,
    fun rises sends slot => ?_⟩
  · have foreign := inOwnSlot_eq_false notOwn
    have taken : s.lengthAfter ldata ≠ some (s.link.bit + 1) →
        exec (.lbeatRise ldata) s = .next (s.takeRise ldata) := fun short =>
      (execLbeatRise_of_slots rises ldata).trans (if_neg short)
    refine ⟨fun first high => ?_, fun first low => ?_, fun later => ?_⟩
    · rw [taken (by simp [State.lengthAfter_zero first]), high, takeRise_foreign_silent rises.1 foreign first]
    · rw [taken (by simp [State.lengthAfter_zero first]), low, takeRise_foreign_begins rises.1 foreign first]
    · intro bits length short
      have known : s.lengthAfter ldata = length := by
        rw [State.lengthAfter_foreign later foreign]
        cases h : s.link.slotLength <;> simp only [length, bits, h] <;> rfl
      clear_value length
      subst known
      rw [taken short, takeRise_foreign_open rises.1 foreign later short]
  · intro length
    have own := (inOwnSlot_iff s).mpr ⟨sends, slot⟩
    have known : s.lengthAfter ldata = length := by
      rcases Nat.eq_zero_or_pos s.link.bit with first | later
      · simp only [length, State.lengthAfter_zero first, if_pos first]
      · rw [State.lengthAfter_own later own]
        cases h : s.link.slotLength <;> simp only [length, if_neg (Nat.ne_of_gt later), h] <;> rfl
    clear_value length
    subst known
    have sent : exec (.ownFrameSent ldata) s = .next (s.takeRise ldata) := execOwnFrameSent_of_own rises own ldata
    rw [sent]
    exact execLbeatRise_of_slots rises ldata

end Sys2Proof.Machine

namespace Sys2Proof.Machine

/-! ### Bits and bit fields -/

@[simp] theorem bitsOf_length {w : Nat} (x : BitVec w) : (bitsOf x).length = w := by simp [bitsOf]

/-- The bits of a word, spelled out from its most significant bit (R170). -/
theorem bitsOf_eq_getLsbD {w : Nat} (x : BitVec w) :
    bitsOf x = (List.range w).map fun i => x.getLsbD (w - 1 - i) := by
  refine List.map_congr_left fun i inside => ?_
  simp [BitVec.getMsbD, List.mem_range.mp inside]

theorem natOfBits_concat (bits : List Bool) (b : Bool) : natOfBits (bits ++ [b]) = 2 * natOfBits bits + b.toNat := by
  simp [natOfBits]

/-- The first bits of a word spell what is left of it above the others. -/
theorem natOfBits_firstBits {w : Nat} (x : BitVec w) (k : Nat) (le : k ≤ w) :
    natOfBits ((List.range k).map fun i => x.getMsbD i) = x.toNat / 2 ^ (w - k) := by
  induction k with
  | zero => simp [natOfBits, Nat.div_eq_of_lt x.isLt]
  | succ k ih =>
    obtain ⟨j, width⟩ : ∃ j, w = k + 1 + j := ⟨w - (k + 1), by omega⟩
    have bit : (x.getMsbD k).toNat = x.toNat / 2 ^ j % 2 := by
      rw [BitVec.getMsbD, BitVec.getLsbD, show w - 1 - k = j by omega, decide_eq_true (by omega : k < w),
        Bool.true_and, Nat.toNat_testBit]
    rw [List.range_succ, List.map_append, List.map_singleton, natOfBits_concat, ih (by omega), bit,
      show w - k = j + 1 by omega, show w - (k + 1) = j by omega, Nat.pow_succ, ← Nat.div_div_eq_div_mul]
    omega

/-- The bits of a word spell its value (R170). -/
@[simp] theorem natOfBits_bitsOf {w : Nat} (x : BitVec w) : natOfBits (bitsOf x) = x.toNat := by
  simpa [bitsOf] using natOfBits_firstBits x w le_rfl

/-- A field that lies behind some bits is found behind them (Table 12-1). -/
theorem bitField_skip {before : List Bool} {position : Nat} (behind : 1 ≤ position) (rest : List Bool) (width : Nat) :
    bitField (before ++ rest) (before.length + position) width = bitField rest position width := by
  rw [bitField, show before.length + position - 1 = before.length + (position - 1) by omega, List.drop_append]
  simp [bitField, List.drop_eq_nil_of_le]

/-- A field that lies within the first bits is found in them alone. -/
theorem bitField_within {position width count : Nat} (bits : List Bool) (fits : position - 1 + width ≤ count) :
    bitField (bits.take count) position width = bitField bits position width := by
  rw [bitField, List.drop_take, List.take_take, Nat.min_eq_left (by omega), bitField]

theorem bitField_append_left {bits : List Bool} {position width : Nat} (rest : List Bool)
    (fits : position - 1 + width ≤ bits.length) :
    bitField (bits ++ rest) position width = bitField bits position width := by
  rw [← bitField_within (bits ++ rest) fits, List.take_left]

/-- A word that stands first is read back. -/
theorem bitField_bitsOf {w : Nat} (x : BitVec w) (rest : List Bool) : bitField (bitsOf x ++ rest) 1 w = x.toNat := by
  rw [bitField_append_left rest (by simp)]
  simp [bitField, List.take_of_length_le]

/-- A flag that stands first is read back. -/
theorem bitField_flag (flag : Bool) (rest : List Bool) : bitField (flag :: rest) 1 1 = flag.toNat := by
  simp [bitField, natOfBits]

/-- A field behind a word, at a position that is given as a number. -/
theorem bitField_behind_bitsOf {w position width : Nat} (x : BitVec w) (rest : List Bool) (behind : w < position) :
    bitField (bitsOf x ++ rest) position width = bitField rest (position - w) width := by
  have := bitField_skip (before := bitsOf x) (position := position - w) (by omega) rest width
  rwa [bitsOf_length, show w + (position - w) = position by omega] at this

theorem bitField_behind_flag {position width : Nat} (flag : Bool) (rest : List Bool) (behind : 1 < position) :
    bitField (flag :: rest) position width = bitField rest (position - 1) width := by
  have := bitField_skip (before := [flag]) (position := position - 1) (by omega) rest width
  rwa [List.length_singleton, show 1 + (position - 1) = position by omega] at this

/-- Records of one width, one after the other, number that width times their count. -/
theorem length_flatMap_of_width {α : Type} {g : α → List Bool} {width : Nat} (each : ∀ x, (g x).length = width)
    (l : List α) : (l.flatMap g).length = width * l.length := by
  simp [List.length_flatMap, each, Nat.mul_comm]

/-- A field of the i-th of several records of one width. -/
theorem bitField_flatMap {α : Type} {g : α → List Bool} {width : Nat} (each : ∀ x, (g x).length = width) (l : List α)
    {i : Nat} (inside : i < l.length) (rest : List Bool) {position count : Nat} (behind : 1 ≤ position)
    (fits : position - 1 + count ≤ width) :
    bitField (l.flatMap g ++ rest) (width * i + position) count = bitField (g l[i]) position count := by
  have before : ((l.take i).flatMap g).length = width * i := by
    rw [length_flatMap_of_width each, List.length_take, Nat.min_eq_left (by omega)]
  have split : l.flatMap g ++ rest = (l.take i).flatMap g ++ (g l[i] ++ ((l.drop (i + 1)).flatMap g ++ rest)) := by
    have whole : l.take i ++ l[i] :: l.drop (i + 1) = l := by
      rw [← List.drop_eq_getElem_cons inside, List.take_append_drop]
    conv_lhs => rw [← whole, List.flatMap_append, List.flatMap_cons]
    simp only [List.append_assoc]
  rw [split, ← before, bitField_skip behind, bitField_append_left _ (by rw [each]; exact fits)]

end Sys2Proof.Machine

namespace Sys2Proof.Machine

/-! ### A frame in its slot (Table 12-1) -/

/-- The bits of a frame's slot up to the zero count, positions 1 to 50. -/
def Frame.headBits (f : Frame) : List Bool :=
  false :: (bitsOf f.station ++ (bitsOf f.cs ++ (bitsOf f.digest ++ (bitsOf f.check ++
    (f.join :: f.freeze :: f.leave :: bitsOf (BitVec.ofNat 2 f.zeros.length))))))

/-- The zero indices, from position 51 on. -/
def Frame.zeroBits (f : Frame) : List Bool := f.zeros.flatMap fun e => bitsOf (BitVec.ofNat 5 e.val)

/-- One delta record: its entry, then its amount. -/
def Delta.bits (d : Delta) : List Bool := bitsOf (BitVec.ofNat 5 d.entry.val) ++ bitsOf d.amount

/-- The delta records, from position 55 + 5z on. -/
def Frame.deltaBits (f : Frame) : List Bool := f.deltas.flatMap Delta.bits

/-- The carry and the frame check, from position 55 + 5z + 17d on. -/
def Frame.tailBits (f : Frame) : List Bool :=
  bitsOf (BitVec.ofNat 5 f.carryIndex.val) ++ (bitsOf f.carryValue ++ bitsOf f.frameCheck)

@[simp] theorem Level.bit_ofBit (b : Bool) : (Level.ofBit b).bit = b := by cases b <;> rfl

@[simp] theorem Level.bit_low : Level.low.bit = false := rfl

/-- A slot reads as a low presence bit, the frame's body and its check (R52). -/
theorem Frame.bits_eq_body (f : Frame) : f.levels.map Level.bit = false :: (f.body ++ bitsOf f.frameCheck) := by
  simp [Frame.levels, Function.comp_def]

/-- The same bits, part by part. -/
theorem Frame.bits_eq_parts (f : Frame) : f.levels.map Level.bit =
    f.headBits ++ (f.zeroBits ++ (bitsOf (BitVec.ofNat 4 f.deltas.length) ++ (f.deltaBits ++ f.tailBits))) := by
  simp only [Frame.bits_eq_body, Frame.body, Frame.headBits, Frame.zeroBits, Frame.deltaBits, Frame.tailBits,
    List.append_assoc, List.cons_append, List.nil_append]
  rfl

theorem Frame.headBits_length (f : Frame) : f.headBits.length = 50 := by simp [Frame.headBits]

theorem Frame.zeroBits_length (f : Frame) : f.zeroBits.length = 5 * f.zeros.length :=
  length_flatMap_of_width (fun _ => bitsOf_length _) _

theorem Delta.bits_length (d : Delta) : d.bits.length = 17 := by simp [Delta.bits]

theorem Frame.deltaBits_length (f : Frame) : f.deltaBits.length = 17 * f.deltas.length :=
  length_flatMap_of_width Delta.bits_length _

/-- A slot is 99 + 5z + 17d bits long (R35). -/
theorem Frame.bits_length (f : Frame) :
    (f.levels.map Level.bit).length = 99 + 5 * f.zeros.length + 17 * f.deltas.length := by
  simp only [Frame.bits_eq_parts, List.length_append, Frame.headBits_length, Frame.zeroBits_length, bitsOf_length,
    Frame.deltaBits_length, Frame.tailBits]
  omega

theorem Frame.body_length (f : Frame) : f.body.length = 82 + 5 * f.zeros.length + 17 * f.deltas.length := by
  have := f.bits_length
  simp only [Frame.bits_eq_body, List.length_cons, List.length_append, bitsOf_length] at this
  omega

/-! ### Each field where Table 12-1 has it -/

/-- A field up to the zero count lies in the head of the slot. -/
theorem Frame.bitField_head (f : Frame) {position width : Nat} (fits : position - 1 + width ≤ 50) :
    bitField (f.levels.map Level.bit) position width = bitField f.headBits position width := by
  rw [Frame.bits_eq_parts, bitField_append_left _ (by rw [Frame.headBits_length]; exact fits)]

/-- The fields of the head, one behind the other. -/
theorem Frame.headFields (f : Frame) :
    bitField f.headBits 2 4 = f.station.toNat ∧ bitField f.headBits 6 16 = f.cs.toNat ∧
    bitField f.headBits 22 8 = f.digest.toNat ∧ bitField f.headBits 30 16 = f.check.toNat ∧
    bitField f.headBits 46 1 = f.join.toNat ∧ bitField f.headBits 47 1 = f.freeze.toNat ∧
    bitField f.headBits 48 1 = f.leave.toNat ∧
    bitField f.headBits 49 2 = (BitVec.ofNat 2 f.zeros.length).toNat := by
  have count := bitField_bitsOf (BitVec.ofNat 2 f.zeros.length) []
  rw [List.append_nil] at count
  refine ⟨?_, ?_, ?_, ?_, ?_, ?_, ?_, ?_⟩ <;>
    simp [Frame.headBits, bitField_behind_flag, bitField_behind_bitsOf, bitField_bitsOf, bitField_flag, count]

theorem Frame.zeroCountRead_bits {f : Frame} (zeros : f.zeros.length ≤ 3) :
    zeroCountRead (f.levels.map Level.bit) = f.zeros.length := by
  obtain ⟨-, -, -, -, -, -, -, count⟩ := f.headFields
  rw [zeroCountRead, Frame.bitField_head f (by omega), count]
  simp only [BitVec.toNat_ofNat]
  omega

/-- A field behind the zero count. -/
theorem Frame.bitField_behindHead (f : Frame) {position : Nat} (behind : 1 ≤ position) (width : Nat) :
    bitField (f.levels.map Level.bit) (50 + position) width = bitField
      (f.zeroBits ++ (bitsOf (BitVec.ofNat 4 f.deltas.length) ++ (f.deltaBits ++ f.tailBits))) position width := by
  rw [Frame.bits_eq_parts, ← f.headBits_length, bitField_skip behind]

/-- A field behind the zero indices. -/
theorem Frame.bitField_behindZeros (f : Frame) {position : Nat} (behind : 1 ≤ position) (width : Nat) :
    bitField (f.levels.map Level.bit) (50 + (5 * f.zeros.length + position)) width =
      bitField (bitsOf (BitVec.ofNat 4 f.deltas.length) ++ (f.deltaBits ++ f.tailBits)) position width := by
  rw [Frame.bitField_behindHead f (by omega), ← f.zeroBits_length, bitField_skip behind]

/-- A field behind the delta count. -/
theorem Frame.bitField_behindCount (f : Frame) {position : Nat} (behind : 1 ≤ position) (width : Nat) :
    bitField (f.levels.map Level.bit) (54 + 5 * f.zeros.length + position) width =
      bitField (f.deltaBits ++ f.tailBits) position width := by
  rw [show 54 + 5 * f.zeros.length + position = 50 + (5 * f.zeros.length + (4 + position)) by omega,
    Frame.bitField_behindZeros f (by omega), bitField_behind_bitsOf _ _ (by omega), Nat.add_sub_cancel_left]

/-- A field behind the delta records. -/
theorem Frame.bitField_tail (f : Frame) {position : Nat} (behind : 1 ≤ position) (width : Nat) :
    bitField (f.levels.map Level.bit) (54 + 5 * f.zeros.length + 17 * f.deltas.length + position) width =
      bitField f.tailBits position width := by
  rw [Nat.add_assoc, Frame.bitField_behindCount f (by omega), ← f.deltaBits_length, bitField_skip behind]

theorem Frame.deltaCountRead_bits {f : Frame} (zeros : f.zeros.length ≤ 3) (deltas : f.deltas.length ≤ 15) :
    deltaCountRead (f.levels.map Level.bit) = f.deltas.length := by
  rw [deltaCountRead, Frame.zeroCountRead_bits zeros,
    show 51 + 5 * f.zeros.length = 50 + (5 * f.zeros.length + 1) by omega, Frame.bitField_behindZeros f (by omega),
    bitField_bitsOf]
  simp only [BitVec.toNat_ofNat]
  omega

/-- An entry number survives its five bits. -/
theorem entry_ofNat_toNat (e : Entry) : Fin.ofNat 32 (BitVec.ofNat 5 e.val).toNat = e := by
  ext
  simp only [BitVec.toNat_ofNat, Fin.val_ofNat]
  omega

theorem Frame.zeroField {f : Frame} {i : Nat} (inside : i < f.zeros.length) :
    entryField (f.levels.map Level.bit) (51 + 5 * i) = f.zeros[i] := by
  have field : bitField (f.levels.map Level.bit) (50 + (5 * i + 1)) 5 = (BitVec.ofNat 5 f.zeros[i].val).toNat := by
    rw [Frame.bitField_behindHead f (by omega), Frame.zeroBits,
      bitField_flatMap (fun _ => bitsOf_length _) f.zeros inside _ (by omega) (by omega)]
    exact (congrArg (bitField · 1 5) (List.append_nil _)).symm.trans (bitField_bitsOf _ [])
  rw [entryField, show 51 + 5 * i = 50 + (5 * i + 1) by omega, field, entry_ofNat_toNat]

/-- A field of the j-th delta record. -/
theorem Frame.bitField_delta {f : Frame} {j : Nat} (inside : j < f.deltas.length) {position width : Nat}
    (behind : 1 ≤ position) (fits : position - 1 + width ≤ 17) :
    bitField (f.levels.map Level.bit) (54 + 5 * f.zeros.length + (17 * j + position)) width =
      bitField f.deltas[j].bits position width := by
  rw [Frame.bitField_behindCount f (by omega), Frame.deltaBits,
    bitField_flatMap Delta.bits_length f.deltas inside _ behind fits]

theorem Delta.fields (d : Delta) : bitField d.bits 1 5 = (BitVec.ofNat 5 d.entry.val).toNat ∧
    bitField d.bits 6 12 = d.amount.toNat := by
  have amount := bitField_bitsOf d.amount []
  rw [List.append_nil] at amount
  exact ⟨bitField_bitsOf _ _, (bitField_behind_bitsOf _ _ (by omega)).trans amount⟩

theorem Frame.tailFields (f : Frame) : bitField f.tailBits 1 5 = (BitVec.ofNat 5 f.carryIndex.val).toNat ∧
    bitField f.tailBits 6 24 = f.carryValue.toNat ∧ bitField f.tailBits 30 16 = f.frameCheck.toNat := by
  have check := bitField_bitsOf f.frameCheck []
  rw [List.append_nil] at check
  refine ⟨bitField_bitsOf _ _, ?_, ?_⟩ <;>
    simp [Frame.tailBits, bitField_behind_bitsOf, bitField_bitsOf, check]

/-! ### The frame read back -/

/-- The zeros and the deltas of a frame are read back in their order (R46). -/
theorem Frame.parse_records {f : Frame} (zeros : f.zeros.length ≤ 3) (deltas : f.deltas.length ≤ 15) :
    (Frame.parse (f.levels.map Level.bit)).zeros = f.zeros ∧
    (Frame.parse (f.levels.map Level.bit)).deltas = f.deltas := by
  have z := Frame.zeroCountRead_bits zeros
  have d := Frame.deltaCountRead_bits zeros deltas
  refine ⟨List.ext_getElem (by simp [Frame.parse, z]) fun i _ inside => ?_,
    List.ext_getElem (by simp [Frame.parse, d]) fun j _ inside => ?_⟩
  · simp [Frame.parse, Frame.zeroField inside]
  · obtain ⟨entry, amount⟩ := f.deltas[j].fields
    have entryAt := (Frame.bitField_delta inside (by omega) (by omega)).trans entry
    have amountAt := (Frame.bitField_delta inside (by omega) (by omega)).trans amount
    rw [show 54 + 5 * f.zeros.length + (17 * j + 1) = 55 + 5 * f.zeros.length + 17 * j by omega] at entryAt
    rw [show 54 + 5 * f.zeros.length + (17 * j + 6) = 60 + 5 * f.zeros.length + 17 * j by omega] at amountAt
    simp [Frame.parse, entryField, z, entryAt, amountAt]

@[ext] theorem Frame.ext {f g : Frame} (station : f.station = g.station) (cs : f.cs = g.cs)
    (digest : f.digest = g.digest) (check : f.check = g.check) (join : f.join = g.join) (freeze : f.freeze = g.freeze)
    (leave : f.leave = g.leave) (zeros : f.zeros = g.zeros) (deltas : f.deltas = g.deltas)
    (carryIndex : f.carryIndex = g.carryIndex) (carryValue : f.carryValue = g.carryValue)
    (frameCheck : f.frameCheck = g.frameCheck) : f = g := by
  cases f
  cases g
  simp_all

/-- The carry and the frame check are read back (R47). -/
theorem Frame.parse_tail {f : Frame} (zeros : f.zeros.length ≤ 3) (deltas : f.deltas.length ≤ 15) :
    (Frame.parse (f.levels.map Level.bit)).carryIndex = f.carryIndex ∧
    (Frame.parse (f.levels.map Level.bit)).carryValue = f.carryValue ∧
    (Frame.parse (f.levels.map Level.bit)).frameCheck = f.frameCheck := by
  have z := Frame.zeroCountRead_bits zeros
  have d := Frame.deltaCountRead_bits zeros deltas
  obtain ⟨index, value, check⟩ := f.tailFields
  have indexAt := (f.bitField_tail (by omega) 5).trans index
  have valueAt := (f.bitField_tail (by omega) 24).trans value
  have checkAt := (f.bitField_tail (by omega) 16).trans check
  rw [show 54 + 5 * f.zeros.length + 17 * f.deltas.length + 1 = 55 + 5 * f.zeros.length + 17 * f.deltas.length by omega]
    at indexAt
  rw [show 54 + 5 * f.zeros.length + 17 * f.deltas.length + 6 = 60 + 5 * f.zeros.length + 17 * f.deltas.length by omega]
    at valueAt
  rw [show 54 + 5 * f.zeros.length + 17 * f.deltas.length + 30 = 84 + 5 * f.zeros.length + 17 * f.deltas.length by omega]
    at checkAt
  simp only [Frame.parse, entryField, z, d, indexAt, valueAt, checkAt, entry_ofNat_toNat, BitVec.ofNat_toNat,
    BitVec.setWidth_eq, and_self]

/-- A flag is read back from the bit that carries it. -/
theorem decide_toNat_eq_one (flag : Bool) : decide (flag.toNat = 1) = flag := by cases flag <;> rfl

/-- The fields up to the zero count are read back (R45). -/
theorem Frame.parse_head (f : Frame) :
    (Frame.parse (f.levels.map Level.bit)).station = f.station ∧ (Frame.parse (f.levels.map Level.bit)).cs = f.cs ∧
    (Frame.parse (f.levels.map Level.bit)).digest = f.digest ∧ (Frame.parse (f.levels.map Level.bit)).check = f.check ∧
    (Frame.parse (f.levels.map Level.bit)).join = f.join ∧ (Frame.parse (f.levels.map Level.bit)).freeze = f.freeze ∧
    (Frame.parse (f.levels.map Level.bit)).leave = f.leave := by
  obtain ⟨station, cs, digest, check, join, freeze, leave, -⟩ := f.headFields
  refine ⟨?_, ?_, ?_, ?_, ?_, ?_, ?_⟩ <;> simp only [Frame.parse] <;> rw [f.bitField_head (by omega)] <;>
    simp only [station, cs, digest, check, join, freeze, leave, BitVec.ofNat_toNat, BitVec.setWidth_eq,
      decide_toNat_eq_one]

/-- A frame is read back exactly as it was sent. -/
theorem Frame.parse_bits {f : Frame} (zeros : f.zeros.length ≤ 3) (deltas : f.deltas.length ≤ 15) :
    Frame.parse (f.levels.map Level.bit) = f := by
  obtain ⟨station, cs, digest, check, join, freeze, leave⟩ := f.parse_head
  obtain ⟨zerosRead, deltasRead⟩ := Frame.parse_records zeros deltas
  obtain ⟨carryIndex, carryValue, frameCheck⟩ := Frame.parse_tail zeros deltas
  exact Frame.ext station cs digest check join freeze leave zerosRead deltasRead carryIndex carryValue frameCheck

/-- The frame check is computed over the bits that it covers (R47). -/
theorem Frame.coveredBits_bits {f : Frame} (zeros : f.zeros.length ≤ 3) (deltas : f.deltas.length ≤ 15) :
    coveredBits (f.levels.map Level.bit) = f.body := by
  rw [coveredBits, Frame.zeroCountRead_bits zeros, Frame.deltaCountRead_bits zeros deltas, Frame.bits_eq_body,
    List.drop_one, List.tail_cons, ← Frame.body_length, List.take_left]

/-- The length of a slot is known as soon as its two counts are in (R35). -/
theorem Frame.slotLengthRead_take {f : Frame} (zeros : f.zeros.length ≤ 3) (deltas : f.deltas.length ≤ 15) {k : Nat}
    (le : k ≤ (f.levels.map Level.bit).length) : slotLengthRead ((f.levels.map Level.bit).take k) =
      if k < 54 + 5 * f.zeros.length then none else some (f.levels.map Level.bit).length := by
  have length : ((f.levels.map Level.bit).take k).length = k := List.length_take_of_le le
  rw [slotLengthRead, length]
  by_cases early : k < 50
  · rw [if_pos early, if_pos (by omega)]
  · have z : zeroCountRead ((f.levels.map Level.bit).take k) = f.zeros.length := by
      rw [zeroCountRead, bitField_within _ (by omega)]
      exact Frame.zeroCountRead_bits zeros
    rw [if_neg early, z]
    by_cases counting : k < 54 + 5 * f.zeros.length
    · rw [if_pos counting, if_pos counting]
    · have d : deltaCountRead ((f.levels.map Level.bit).take k) = f.deltas.length := by
        rw [deltaCountRead, z, bitField_within _ (by omega), ← Frame.zeroCountRead_bits zeros]
        exact Frame.deltaCountRead_bits zeros deltas
      rw [if_neg counting, if_neg counting, d, Frame.bits_length]

/-- Settles O46: the layout part by part, then each field from its place. -/
theorem frameReadsBackAsSent : Obligations.FrameReadsBackAsSent := by
  unfold Obligations.FrameReadsBackAsSent
  intro msb
  have spells : ∀ (w : Nat) (x : BitVec w), bitsOf x = msb w x := fun _ x => bitsOf_eq_getLsbD x
  refine ⟨spells, fun f zeros deltas => ⟨?_, ?_, Frame.parse_bits zeros deltas, Frame.coveredBits_bits zeros deltas,
    f.bits_length, fun k le => Frame.slotLengthRead_take zeros deltas le⟩⟩
  · simp only [← spells]
    rfl
  · rw [← spells]
    exact f.bits_eq_body

end Sys2Proof.Machine

namespace Sys2Proof.Machine

open Sys2Proof.Safety

/-! ### Bits and nibbles of a byte -/

section
variable (b : Byte)

theorem Byte.getLsbD_zero_iff : b.getLsbD 0 = true ↔ b.toNat % 2 = 1 := by
  rw [BitVec.getLsbD, Nat.testBit_zero, decide_eq_true_eq]

theorem Byte.getLsbD_seven_iff : b.getLsbD 7 = true ↔ 128 ≤ b.toNat := by
  have := b.isLt
  rw [BitVec.getLsbD, Nat.testBit_eq_decide_div_mod_eq, decide_eq_true_eq]
  omega

@[simp] theorem Byte.toNat_lowTwo : (b.extractLsb' 0 2).toNat = b.toNat % 4 := by simp

@[simp] theorem Byte.toNat_lowNibble : (b.extractLsb' 0 4).toNat = b.toNat % 16 := by simp

@[simp] theorem Byte.toNat_highNibble : (b.extractLsb' 4 4).toNat = b.toNat / 16 := by
  have := b.isLt
  simp [BitVec.extractLsb'_toNat, Nat.shiftRight_eq_div_pow]
  omega

end

/-- A three-byte field as a number (R170). -/
theorem Record.readTally_toNat (m : Record) (offset : Nat) : (m.readTally offset).toNat = threeAt m offset := by
  have low := (m.read (offset + 2)).isLt
  have middle := (m.read (offset + 1)).isLt
  simp only [Record.readTally, tallyOfBytes, BitVec.toNat_append, threeAt, byteAt]
  rw [← Nat.shiftLeft_add_eq_or_of_lt low, ← Nat.shiftLeft_add_eq_or_of_lt middle]
  simp only [Nat.shiftLeft_eq]
  omega

/-! ### The settings in the bytes of a record (Table 12-2) -/

theorem Record.headerReads (m : Record) : headerReads m := by
  refine ⟨rfl, rfl, Byte.getLsbD_zero_iff _, ?_, ?_, ?_, ?_, rfl, rfl, rfl, rfl, ?_, ?_⟩
  iterate 4
    intro code
    rw [byteAt] at code
    simp only [Record.halfPeriod, code]
  · intro code
    rw [byteAt] at code ⊢
    unfold Record.samplePeriod
    interval_cases (m.read 0x08).toNat <;> rfl
  · have off : m.read 0x09 = 0 ↔ byteAt m 0x09 = 0 := by
      rw [byteAt, BitVec.toNat_eq]
      rfl
    exact if_congr off rfl rfl

theorem Record.entryReads (m : Record) (e : Entry) : entryReads m e := by
  refine ⟨?_, ?_, ?_, Byte.getLsbD_seven_iff _, m.readTally_toNat _, m.readTally_toNat _, m.readTally_toNat _,
    m.readTally_toNat _⟩
  all_goals
    intro code
    unfold Record.kind
    rw [Byte.toNat_lowTwo, show (m.read (entryOffset e)).toNat % 4 = _ from code]
    rfl

theorem Record.mapReads (m : Record) (at_ : Nat) : mapReads m at_ (m.mapAt at_) := by
  refine ⟨fun e named => ?_, fun none => ?_, ?_⟩
  · have inside : (m.read at_).toNat < 32 := by
      rw [show (m.read at_).toNat = e.val from named]
      exact e.isLt
    rw [Record.mapAt, dif_pos inside]
    exact congrArg some (Fin.ext named)
  · have outside : ¬(m.read at_).toNat < 32 := by
      rw [show (m.read at_).toNat = 0xFF from none]
      omega
    rw [Record.mapAt, dif_neg outside]
  · simp only [Record.mapAt, Byte.toNat_lowNibble]
    exact if_congr (Byte.getLsbD_seven_iff _) rfl rfl

theorem Record.inputReads (m : Record) (i : Fin 8) : inputReads m i := by
  refine ⟨?_, ?_, ?_, ?_, ?_, ?_, ?_, ?_, m.mapReads _, m.mapReads _⟩
  iterate 4
    intro code
    rw [byteAt] at code
    simp only [Record.inputMode, inputOffset, code]
  · intro code
    rw [byteAt] at code ⊢
    simp only [Record.settleCount, inputOffset, Byte.toNat_highNibble]
    interval_cases (m.read (0x1B0 + 6 * i.val + 1)).toNat / 16 <;> rfl
  all_goals
    intro code
    rw [byteAt] at code
    simp [Record.edgeSelect, Record.blockedLevel, inputOffset, code]

theorem Record.outputReads (m : Record) (o : Fin 8) : outputReads m o := by
  refine ⟨?_, ?_, ?_, fun e named => ?_, ?_, ?_, ?_, ?_, ?_, ?_, rfl⟩
  iterate 3
    intro code
    rw [byteAt] at code
    simp only [Record.outputSource, outputOffset, code]
  · rw [byteAt] at named
    simp only [Record.outputEntry, outputOffset, named]
    exact Fin.ofNat_eq_cast 32 _ ▸ Fin.cast_val_eq_self e
  · simp only [Record.safeLevel, outputOffset, byteAt, ← Byte.getLsbD_seven_iff]
    cases (m.read (0x1E0 + 4 * o.val + 2)).getLsbD 7 <;> rfl
  all_goals
    intro code
    rw [byteAt] at code
    simp only [Record.outputMode, outputOffset, Byte.toNat_lowNibble, code]

theorem Record.settingsRead (m : Record) : settingsRead m :=
  ⟨m.headerReads, m.entryReads, m.inputReads, m.outputReads⟩

/-- The settings are those of the committed record, or of a record of zeros (R156, entry 22). -/
theorem State.settings_of_committed {s : State} (committed : s.setup.committed = true) : s.settings = s.setup.record :=
  if_pos committed

theorem State.settings_of_uncommitted {s : State} (uncommitted : s.setup.committed = false) : s.settings = [] := by
  simp [State.settings, uncommitted]

/-! ### Bytes written and read -/

/-- Bytes written leave every offset outside their range as it was (R162). -/
theorem Record.read_writeAll_outside (m : Record) (offset : Nat) (data : List Byte) {at_ : Nat}
    (outside : at_ < offset ∨ offset + data.length ≤ at_) : (m.writeAll offset data).read at_ = m.read at_ := by
  induction data generalizing m offset with
  | nil => rfl
  | cons b rest ih =>
    rw [List.length_cons] at outside
    rw [Record.writeAll, ih _ _ (by omega), Record.read_write_other _ _ (by omega)]

/-- Bytes written are read back, each at its offset (R162). -/
theorem Record.read_writeAll_inside {m : Record} (wf : m.wf = true) {offset : Nat} (data : List Byte)
    (fits : offset + data.length ≤ Config.recordBytes) {i : Nat} (inside : i < data.length) :
    (m.writeAll offset data).read (offset + i) = data[i] := by
  induction data generalizing m offset i with
  | nil => exact absurd inside (Nat.not_lt_zero i)
  | cons b rest ih =>
    rw [List.length_cons] at fits inside
    rw [Record.writeAll]
    cases i with
    | zero =>
      rw [Record.read_writeAll_outside _ _ _ (by omega)]
      exact Record.read_write_same wf offset b
    | succ i =>
      rw [show offset + (i + 1) = offset + 1 + i by omega]
      exact ih (Record.wf_write wf b (by omega)) (by omega) (by omega)

/-! ### SETUP_WRITE and SETUP_READ -/

/-- What the eighth sampling edge of a byte places on TDO (R146, Table 10-2). -/
theorem Tap.tdoAfterByte_toSamplingEdge (t : Tap) (next : Byte) : t.toSamplingEdge.tdoAfterByte next =
    if t.fmt0 = .low then .bit (Level.ofBit (next.getLsbD 7)) else t.toSamplingEdge.tdo := by
  simp [Tap.tdoAfterByte, Tap.firstBitAtOnce]

/-- The tap that a request leaves, as the statements put it. -/
theorem takeRequest_answered {code : Byte} {operands : List Byte} (effect : State → State × Answer) {s : State}
    (completes : s.tap.completes code operands = true) : takeRequest code operands effect s =
      .next (answered s (effect s).1 code operands (effect s).2) := by
  rw [takeRequest_of_completes effect completes, Tap.fixAnswer, Tap.tdoAfterByte_toSamplingEdge]
  rfl

theorem State.requestWrite_refused {s : State} (setup : s.member.state = .setup) {offset : Half} {length : Byte}
    (data : List Byte) (bad : length.toNat = 0 ∨ 32 < length.toNat ∨ 512 < offset.toNat + length.toNat) :
    s.requestWrite offset length data = (s, answerOf .badOperand) := by
  rw [State.requestWrite, if_neg (by simp [setup])]
  by_cases short : length.toNat = 0 ∨ 32 < length.toNat
  · rw [if_pos short]
  · rw [if_neg short, if_pos (by omega)]

theorem State.requestWrite_accepted {s : State} (setup : s.member.state = .setup) {offset : Half} {length : Byte}
    (data : List Byte) (least : 1 ≤ length.toNat) (most : length.toNat ≤ 32)
    (fits : offset.toNat + length.toNat ≤ 512) : s.requestWrite offset length data =
      ({ s with setup := { s.setup with record := s.setup.record.writeAll offset.toNat data } }, answerOk []) := by
  rw [State.requestWrite, if_neg (by simp [setup]), if_neg (by omega), if_neg (by omega)]

theorem State.readAnswer_refused (s : State) {offset : Half} {length : Byte}
    (bad : length.toNat = 0 ∨ 32 < length.toNat ∨ 0x201 < offset.toNat ∨ 0x202 < offset.toNat + length.toNat) :
    s.readAnswer offset length = answerOf .badOperand := by
  rw [State.readAnswer]
  by_cases short : length.toNat = 0 ∨ 32 < length.toNat
  · rw [if_pos short]
  · rw [if_neg short, if_pos (by omega)]

theorem State.readAnswer_accepted (s : State) {offset : Half} {length : Byte} (least : 1 ≤ length.toNat)
    (most : length.toNat ≤ 32) (fits : offset.toNat + length.toNat ≤ 0x202) : s.readAnswer offset length =
      answerOk ((List.range' offset.toNat length.toNat).map (readableByte s.setup.record s.setup.failure)) := by
  rw [State.readAnswer, if_neg (by omega), if_neg (by omega)]

/-- The readable range is the record, then the two bytes of the failure offset (R163). -/
theorem readableByte_cases (m : Record) (failure : Half) (offset : Nat) :
    (offset < 0x200 → readableByte m failure offset = m.read offset) ∧
    (offset = 0x200 → readableByte m failure offset = failure.extractLsb' 8 8) ∧
    (offset = 0x201 → readableByte m failure offset = failure.extractLsb' 0 8) := by
  refine ⟨fun inside => if_pos inside, ?_, ?_⟩ <;> rintro rfl <;> rfl

/-- Settles O20: the settings byte by byte, then each request by its ranges. -/
theorem setupStoreReadsAndWrites : Obligations.SetupStoreReadsAndWrites := by
  unfold Obligations.SetupStoreReadsAndWrites
  refine ⟨Record.settingsRead, fun s => ⟨State.settings_of_committed, fun uncommitted offset => ?_⟩,
    fun s offset length data setup wf count completes => ?_, fun s offset length completes => ?_⟩
  · rw [State.settings_of_uncommitted uncommitted]
    rfl
  · have written : exec (.setupWrite offset length data) s = .next (answered s (s.requestWrite offset length data).1
        0x20 (bytesOfHalf offset ++ length :: data) (s.requestWrite offset length data).2) :=
      (if_pos count).trans (takeRequest_answered (fun t => t.requestWrite offset length data) completes)
    rw [written]
    refine ⟨fun bad => ?_, fun least most fits => ?_⟩
    · rw [State.requestWrite_refused setup data bad]
      rfl
    · have size : data.length = length.toNat := count.trans (if_pos ⟨least, most⟩)
      rw [State.requestWrite_accepted setup data least most fits]
      refine ⟨s.setup.record.writeAll offset.toNat data, rfl, fun i inside => ?_, fun at_ outside => ?_⟩
      · rw [Record.read_writeAll_inside wf data (by rw [size]; exact fits) (by omega)]
        exact List.getElem?_eq_getElem _
      · exact Record.read_writeAll_outside _ _ _ (by rw [size]; exact outside)
  · have read : exec (.setupRead offset length) s = .next (answered s s 0x21 (bytesOfHalf offset ++ [length])
        (s.readAnswer offset length)) :=
      takeRequest_answered (reading fun t => t.readAnswer offset length) completes
    rw [read]
    refine ⟨fun bad => ?_, fun least most fits => ?_⟩
    · rw [State.readAnswer_refused s bad]
      rfl
    · rw [State.readAnswer_accepted s least most fits]
      refine ⟨_, rfl, by simp, fun i inside => ?_⟩
      obtain ⟨record, high, low⟩ := readableByte_cases s.setup.record s.setup.failure (offset.toNat + i)
      have byte : ((List.range' offset.toNat length.toNat).map (readableByte s.setup.record s.setup.failure))[i]? =
          some (readableByte s.setup.record s.setup.failure (offset.toNat + i)) := by
        simp [inside]
      rw [byte]
      exact ⟨fun h => congrArg _ (record h), fun h => congrArg _ (high h), fun h => congrArg _ (low h)⟩

end Sys2Proof.Machine

namespace Sys2Proof.Machine

/-! ### Which frames are received as valid (R57, R58) -/

/-- The amount field -2048, which no frame may carry (R57). -/
theorem Amount.ne_iff_toInt (amount : Amount) : amount ≠ 0x800 ↔ amount.toInt ≠ -2048 := by
  have least : (0x800 : Amount).toInt = -2048 := by decide
  rw [← least, ne_eq, ne_eq, BitVec.toInt_inj]

/-- A carry lies within its range when its entry is used and a LEVEL one does not exceed its ceiling (R47). -/
theorem carryInRange_iff (m : Record) (e : Entry) (value : Tally) :
    carryInRange m e value = true ↔ m.kind e ≠ .off ∧ (m.kind e = .level → value ≤ m.ceiling e) := by
  unfold carryInRange
  cases m.kind e <;> simp

/-- Conditions 2 to 8 of R57, one by one. -/
theorem Frame.fieldsValid_iff (m : Record) (slot : Nat) (f : Frame) :
    f.fieldsValid m slot = true ↔ f.station.toNat = slot ∧ f.zeros.length ≤ 2 ∧ f.deltas.length ≤ 8 ∧
      (∀ d ∈ f.deltas, d.amount.toInt ≠ -2048) ∧ (∀ e ∈ f.zeros, m.kind e ≠ .off) ∧
      (∀ d ∈ f.deltas, m.kind d.entry ≠ .off) ∧ m.kind f.carryIndex ≠ .off ∧
      (m.kind f.carryIndex = .level → f.carryValue ≤ m.ceiling f.carryIndex) ∧
      f.zeros.Nodup ∧ (f.deltas.map fun d => d.entry).Nodup := by
  simp only [Frame.fieldsValid, Bool.and_eq_true, decide_eq_true_eq, List.all_eq_true, carryInRange_iff,
    Amount.ne_iff_toInt]
  tauto

/-- A reception is VALID exactly when the frame as read passes its check and its fields are valid (R57, R58). -/
theorem receive_eq_valid_iff (m : Record) (digest : Byte) (slot : Nat) (bits : List Bool) (f : Frame) (foreign : Bool) :
    receive m digest slot bits = .valid f foreign ↔
      f = Frame.parse bits ∧ foreign = decide (f.digest ≠ digest) ∧ f.frameCheck = crc16 (coveredBits bits) ∧
      f.fieldsValid m slot = true := by
  unfold receive
  dsimp only
  split
  case isTrue valid =>
    rw [SlotResult.valid.injEq]
    constructor
    · rintro ⟨rfl, rfl⟩
      exact ⟨rfl, rfl, valid⟩
    · rintro ⟨rfl, rfl, -⟩
      exact ⟨rfl, rfl⟩
  case isFalse invalid =>
    refine iff_of_false SlotResult.noConfusion ?_
    rintro ⟨rfl, -, valid⟩
    exact invalid valid

/-- Settles O32: the two kinds of result, then the conditions one by one. -/
theorem validExactlyByConditions : Obligations.ValidExactlyByConditions := by
  unfold Obligations.ValidExactlyByConditions
  refine ⟨receive_cases, fun m digest slot bits f foreign => ?_⟩
  rw [receive_eq_valid_iff, Frame.fieldsValid_iff]

end Sys2Proof.Machine

namespace Sys2Proof.Machine

open Sys2Proof.Safety

/-! ### What a composition takes -/

/-- The cyclic order names no entry twice (R65). -/
theorem entriesFrom_nodup (start : Entry) : (entriesFrom start).Nodup :=
  (List.nodup_finRange 32).map (add_right_injective start)

theorem Outbox.selection_nodup (o : Outbox) : o.selection.Nodup :=
  ((entriesFrom_nodup o.cursor).filter _).sublist (List.take_sublist _ _)

theorem Outbox.deltasTaken_entries (o : Outbox) : (o.deltasTaken.map fun d => d.entry) = o.selection := by
  simp [Outbox.deltasTaken, Function.comp_def]

theorem Outbox.deltasTaken_length (o : Outbox) : o.deltasTaken.length ≤ 8 := by
  simpa [Outbox.deltasTaken] using o.selection_length

/-- What a delta record of a composition carries: an entry with an amount to send, and a part of it (R65). -/
theorem Outbox.mem_deltasTaken {o : Outbox} {d : Delta} (taken : d ∈ o.deltasTaken) :
    o.pending[d.entry] ≠ 0 ∧ d.amount.toInt = amountSent o.pending[d.entry] := by
  obtain ⟨e, selected, rfl⟩ := List.mem_map.mp taken
  exact ⟨Outbox.pending_ne_zero_of_mem_selection selected, toInt_amountSent _⟩

theorem Outbox.zerosTaken_length (o : Outbox) : o.zerosTaken.length ≤ 2 := List.length_take_le _ _

theorem Outbox.zerosTaken_sublist (o : Outbox) : o.zerosTaken.Sublist (o.zeroList ++ o.flightZeros) :=
  (List.take_sublist _ _).trans (List.sublist_append_left _ _)

/-! ### The frame composed -/

/-- The frame check is no part of the bits that it covers (R47). -/
theorem Frame.sealed_body (f : Frame) : f.sealed.body = f.body := by simp only [Frame.body, Frame.sealed]

/-- A sealed frame carries the check over its own body (R47). -/
theorem Frame.sealed_frameCheck (f : Frame) : f.sealed.frameCheck = crc16 f.sealed.body := by
  rw [Frame.sealed_body, Frame.sealed]

section
variable (s : State)

@[simp] theorem State.composedFrame_station : s.composedFrame.station = BitVec.ofNat 4 s.settings.stationNumber := rfl
@[simp] theorem State.composedFrame_deltas : s.composedFrame.deltas = s.outbox.deltasTaken := rfl
@[simp] theorem State.composedFrame_carryValue :
    s.composedFrame.carryValue = readValue s.settings s.replica s.member.cursor := rfl
theorem State.composedFrame_frameCheck : s.composedFrame.frameCheck = crc16 s.composedFrame.body :=
  Frame.sealed_frameCheck _

end

/-! ### What a committed record and the laws give the composer -/

/-- A record that fails no check passes each of them (R164). -/
theorem firstFailure_eq_none_iff (m : Record) : firstFailure m = none ↔ ∀ c ∈ setupChecks m, c.fails = false := by
  simp [firstFailure]

/-- An accepted record gives the station a number that fits its field (R165). -/
theorem Record.stationNumber_le_of_accepted {m : Record} (accepted : firstFailure m = none) :
    m.stationNumber ≤ 15 := by
  have passes := (firstFailure_eq_none_iff m).mp accepted ⟨0x00, decide (15 < m.stationNumber)⟩
    (by simp [setupChecks, headerChecks])
  simpa using passes

/-- A station with a valid replica is not in SETUP (Table 1-4). -/
theorem State.ne_setup_of_valid {s : State} (valid : s.valid = true) : s.member.state ≠ .setup := by
  intro setup
  rw [State.valid, setup] at valid
  exact absurd valid (by decide)

/-- A station with a valid replica has a number that fits its field (R1, R165). -/
theorem State.stationNumber_le_of_valid {s : State} (wf : SetupWf s) (valid : s.valid = true) :
    s.settings.stationNumber ≤ 15 := by
  obtain ⟨-, committed_iff, holds, -⟩ := wf
  have committed := committed_iff.mpr (State.ne_setup_of_valid valid)
  obtain ⟨accepted, -⟩ := holds committed
  rw [State.settings_of_committed committed]
  exact Record.stationNumber_le_of_accepted accepted

/-- An entry that is not OFF reads as the table's value (R1). -/
theorem readValue_of_used {m : Record} {e : Entry} (used : m.kind e ≠ .off) (r : Replica) :
    readValue m r e = r.entries[e].value := if_neg used

/-- The fields of a composed frame are valid in the station's own slot, by its own settings (R57). -/
theorem State.composedFrame_fieldsValid {s : State} (lawful : Lawful s) (valid : s.valid = true) :
    s.composedFrame.fieldsValid s.settings s.settings.stationNumber = true := by
  obtain ⟨setup, -, outbox, -, -, values, validity, -, -, -, used, -⟩ := lawful
  obtain ⟨-, -, -, -, zerosNodup, -⟩ := outbox
  obtain ⟨pendingUsed, -, zerosUsed⟩ := used
  obtain ⟨-, knows⟩ := validity
  obtain ⟨-, -, cursorUsed⟩ := knows valid
  have number := State.stationNumber_le_of_valid setup valid
  rw [Frame.fieldsValid_iff]
  refine ⟨?station, s.outbox.zerosTaken_length, s.outbox.deltasTaken_length, fun d taken => ?amounts,
    fun e taken => ?zeroKinds, fun d taken => ?deltaKinds, cursorUsed, fun level => ?carry, ?zeroEntries,
    ?deltaEntries⟩
  case station => simp [Nat.mod_eq_of_lt (show s.settings.stationNumber < 16 by omega)]
  case amounts =>
    obtain ⟨-, sent⟩ := Outbox.mem_deltasTaken taken
    have bounds := amountSent_bounds s.outbox.pending[d.entry]
    rw [sent]
    omega
  case zeroKinds => exact zerosUsed e (s.outbox.zerosTaken_sublist.subset taken)
  case deltaKinds =>
    obtain ⟨pending, -⟩ := Outbox.mem_deltasTaken taken
    exact pendingUsed d.entry pending
  case carry =>
    rw [State.composedFrame_carryValue, readValue_of_used cursorUsed]
    exact values s.member.cursor level
  case zeroEntries => exact zerosNodup.sublist s.outbox.zerosTaken_sublist
  case deltaEntries =>
    rw [State.composedFrame_deltas, Outbox.deltasTaken_entries]
    exact s.outbox.selection_nodup

/-- The validity of a frame's fields asks of a record only the kinds and ceilings of its entries (R57). -/
theorem Frame.fieldsValid_congr {m n : Record} (same : ∀ e : Entry, m.kind e = n.kind e ∧ m.ceiling e = n.ceiling e)
    (slot : Nat) (f : Frame) : f.fieldsValid m slot = f.fieldsValid n slot := by
  simp only [Frame.fieldsValid, carryInRange, same]

/-- Settles O47: the frame reads back as composed, its check over its body, and its fields are valid. -/
theorem composedFrameIsReceivedValid : Obligations.ComposedFrameIsReceivedValid := by
  unfold Obligations.ComposedFrameIsReceivedValid
  intro s m digest lawful valid same
  have zeros : s.composedFrame.zeros.length ≤ 3 := s.outbox.zerosTaken_length.trans (by decide)
  have deltas : s.composedFrame.deltas.length ≤ 15 := s.outbox.deltasTaken_length.trans (by decide)
  rw [receive_eq_valid_iff, Frame.parse_bits zeros deltas, Frame.coveredBits_bits zeros deltas,
    Frame.fieldsValid_congr same]
  exact ⟨rfl, rfl, s.composedFrame_frameCheck, State.composedFrame_fieldsValid lawful valid⟩

end Sys2Proof.Machine

namespace Sys2Proof.Machine

open Sys2Proof.Safety

/-! ### SETUP_COMMIT -/

/-- One bit of the CRC-8, the bit shifted out named by its place (R48). -/
theorem crc8Bit_eq (register : Byte) (bit : Bool) : crc8Bit register bit =
    if register.getLsbD 7 = bit then register <<< 1 else (register <<< 1) ^^^ 0x07 := by
  rw [crc8Bit, BitVec.msb_eq_getLsbD_last]

/-- The CRC-8 over whole bytes, each most significant bit first (R48, R170). -/
theorem crc8_bytes (offsets : List Nat) (m : Record) : crc8 (offsets.flatMap fun offset => bitsOf (m.read offset)) =
    (offsets.flatMap fun offset => (List.range 8).map fun i => (m.read offset).getLsbD (7 - i)).foldl
      (fun (register : Byte) bit =>
        if register.getLsbD 7 = bit then register <<< 1 else (register <<< 1) ^^^ 0x07) 0x00 := by
  simp only [crc8, bitsOf_eq_getLsbD, ← crc8Bit_eq]

/-- Entry to LISTEN from OFF, as the statements put it (R82, R83, R99). -/
theorem State.listenFromOff_eq_listensAnew (s : State) (cause : Cause) (lmark lbeat : Level) :
    s.listenFromOff cause lmark lbeat = listensAnew s s.settings cause.code lmark lbeat := by
  cases lmark <;> rfl

/-- A commit leaves every output at its safe level without a pulse, and a LOCAL one with its latch there; the loss of
validity that goes with entry to LISTEN adds nothing (R127, R131). -/
theorem outputsWithoutValidity_outputsAtCommit (m : Record) (outs : Vector Output 8) :
    outputsWithoutValidity m (outputsAtCommit m outs) = Vector.ofFn fun o : Fin 8 =>
      { level := m.safeLevel o, pulse := none
        latch := if m.outputSource o = .local then some (m.safeLevel o) else none } := by
  refine congrArg Vector.ofFn (funext fun o => ?_)
  simp only [outputsAtCommit, Fin.getElem_fin, Vector.getElem_ofFn, ite_self]

/-- What an accepted commit leaves, as the statements put it (R103, R127, R169). -/
theorem State.commitRecord_eq (s : State) (lmark lbeat : Level) : s.commitRecord lmark lbeat =
    { listensAnew s s.setup.record 0x01 lmark lbeat with
      setup := { s.setup with committed := true, digest := s.setup.record.digest, failure := 0xFFFF }
      outputs := Vector.ofFn fun o : Fin 8 =>
        { level := s.setup.record.safeLevel o, pulse := none
          latch := if s.setup.record.outputSource o = .local then some (s.setup.record.safeLevel o) else none }
      inputs := { s.inputs with clock := true } } := by
  rw [State.commitRecord, State.listenFromOff_eq_listensAnew,
    ← outputsWithoutValidity_outputsAtCommit s.setup.record s.outputs]
  rfl

theorem State.requestCommit_rejected {s : State} (setup : s.member.state = .setup) (lmark lbeat : Level) {offset : Nat}
    (fails : firstFailure s.setup.record = some offset) : s.requestCommit lmark lbeat =
      ({ s with setup := { s.setup with failure := BitVec.ofNat 16 offset } }, commitAnswer .badSetup) := by
  rw [State.requestCommit, if_neg (not_not.mpr setup), fails]

theorem State.requestCommit_accepted {s : State} (setup : s.member.state = .setup) (lmark lbeat : Level)
    (passes : firstFailure s.setup.record = none) : s.requestCommit lmark lbeat =
      (s.commitRecord lmark lbeat, commitAnswer .ok) := by
  rw [State.requestCommit, if_neg (not_not.mpr setup), passes]

/-- Settles O21: the digest bit by bit, then the two answers to a commit in SETUP. -/
theorem commitChecksThenListens : Obligations.CommitChecksThenListens := by
  unfold Obligations.CommitChecksThenListens
  refine ⟨crc8_bytes digestOffsets, fun s lmark lbeat setup completes => ?_⟩
  have taken : exec (.setupCommit lmark lbeat) s =
      .next (answered s (s.requestCommit lmark lbeat).1 0x22 [] (s.requestCommit lmark lbeat).2) :=
    takeRequest_answered (fun t => t.requestCommit lmark lbeat) completes
  rw [taken]
  refine ⟨fun offset fails => ?_, fun passes => ?_⟩
  · rw [State.requestCommit_rejected setup lmark lbeat fails]
    rfl
  · rw [State.requestCommit_accepted setup lmark lbeat passes, ← State.commitRecord_eq]
    rfl

end Sys2Proof.Machine

namespace Sys2Proof.Machine

open Sys2Proof.Safety

/-! ### The limits of the Outbox, and what keeps them -/

/-- Every pending amount stands within the limit (R62). -/
abbrev PendingInRange (pending : Vector Int 32) : Prop := ∀ e : Entry, -32767 ≤ pending[e] ∧ pending[e] ≤ 32767

/-- The laws of R65, R68 and R73 by name, over an Outbox alone. -/
structure Outbox.Limits (o : Outbox) : Prop where
  pending : PendingInRange o.pending
  amounts : ∀ d ∈ o.flightDeltas, -2047 ≤ d.amount.toInt ∧ d.amount.toInt ≤ 2047
  deltas : o.flightDeltas.length ≤ 8
  entries : (o.flightDeltas.map fun d => d.entry).Nodup
  zeros : (o.zeroList ++ o.flightZeros).Nodup
  depth : (o.zeroList ++ o.flightZeros).length ≤ 4
  inFrame : o.flightZeros.length ≤ 2

theorem outboxWf_iff_limits (s : State) : OutboxWf s ↔ s.outbox.Limits :=
  ⟨fun ⟨pending, amounts, deltas, entries, zeros, depth, inFrame⟩ =>
    ⟨pending, amounts, deltas, entries, zeros, depth, inFrame⟩,
   fun ⟨pending, amounts, deltas, entries, zeros, depth, inFrame⟩ =>
    ⟨pending, amounts, deltas, entries, zeros, depth, inFrame⟩⟩

/-- One addition holds the amount that it changes to the limit, and leaves the others (R62). -/
theorem Outbox.pendingInRange_add {o : Outbox} (inRange : PendingInRange o.pending) (e : Entry) (amount : Int) :
    PendingInRange (o.add e amount).1.pending := by
  intro x
  rw [Outbox.add_pending, Fin.getElem_fin, Vector.getElem_set]
  split
  · exact saturate_bounds _
  · exact inRange x

section
variable {o : Outbox} (h : o.Limits)
include h

/-- What changes pending amounts and saturation flags alone keeps the limits while the amounts stay within theirs. -/
theorem Outbox.Limits.withPending (pending : Vector Int 32) (saturated : Vector Bool 32)
    (inRange : PendingInRange pending) : Outbox.Limits { o with pending := pending, saturated := saturated } :=
  { h with pending := inRange }

theorem Outbox.Limits.add (e : Entry) (amount : Int) : (o.add e amount).1.Limits := by
  rw [o.add_frame e amount]
  exact h.withPending _ _ (Outbox.pendingInRange_add h.pending e amount)

theorem Outbox.Limits.retire : o.retire.Limits where
  pending := h.pending
  amounts := by simp [Outbox.retire, Outbox.emptyFlight]
  deltas := Nat.zero_le _
  entries := List.nodup_nil
  zeros := by simpa [Outbox.retire, Outbox.emptyFlight] using h.zeros.of_append_left
  depth := by
    have depth := h.depth
    simp only [List.length_append] at depth
    simp [Outbox.retire, Outbox.emptyFlight]
    omega
  inFrame := Nat.zero_le _

/-- A return leaves the listed and in-flight zeros together as they were, all of them in the list (R70). -/
theorem Outbox.Limits.giveBack (cs : Option Half) : (o.giveBack cs).1.Limits := by
  rw [Outbox.giveBack_eq]
  refine ⟨?_, by simp, Nat.zero_le _, List.nodup_nil, ?_, ?_, Nat.zero_le _⟩
  · exact Outbox.addAll_induction (P := fun x => PendingInRange x.pending) cs
      (fun _ e amount inRange => Outbox.pendingInRange_add inRange e amount) o o.flightDeltas h.pending
  · simpa using List.nodup_append_comm.mp h.zeros
  · simpa [Nat.add_comm] using h.depth

/-- A pending amount less what is sent of it is no larger than it was (R65). -/
theorem Outbox.Limits.pendingInRange_afterComposition (member : Bool) :
    PendingInRange (o.afterComposition member).pending := by
  intro e
  have bounds := h.pending e
  have sent := amountSent_bounds o.pending[e]
  simp only [Outbox.afterComposition, Fin.getElem_fin, Vector.getElem_ofFn] at *
  split <;> omega

/-- A composition moves zeros from the head of the list into flight, and takes deltas within R65. -/
theorem Outbox.Limits.afterComposition (member : Bool) : (o.afterComposition member).Limits where
  pending := h.pendingInRange_afterComposition member
  amounts d taken := by
    rw [(Outbox.mem_deltasTaken taken).2]
    exact ⟨(amountSent_bounds _).1, (amountSent_bounds _).2.1⟩
  deltas := o.deltasTaken_length
  entries := o.deltasTaken_entries ▸ o.selection_nodup
  zeros := by
    have parts : (o.zeroList.take 2 ++ o.zeroList.drop 2).Nodup :=
      (List.take_append_drop 2 o.zeroList).symm ▸ h.zeros.of_append_left
    exact List.nodup_append_comm.mp parts
  depth := by
    have depth := h.depth
    simp only [Outbox.afterComposition, Outbox.zerosTaken, List.length_append, List.length_drop, List.length_take] at *
    omega
  inFrame := o.zerosTaken_length

/-- A zero request joins the list where it stands nowhere and the list has room (R73). -/
theorem Outbox.Limits.request {e : Entry} (listed : e ∉ o.zeroList) (inFlight : e ∉ o.flightZeros)
    (room : o.zeroList.length + o.flightZeros.length < 4) :
    Outbox.Limits { o with zeroList := o.zeroList ++ [e] } where
  pending := h.pending
  amounts := h.amounts
  deltas := h.deltas
  entries := h.entries
  zeros := by
    have apart : e ∉ o.zeroList ++ o.flightZeros := by simp [listed, inFlight]
    have front : (e :: (o.zeroList ++ o.flightZeros)).Nodup := List.nodup_cons.mpr ⟨apart, h.zeros⟩
    rw [List.append_assoc]
    exact (List.perm_middle.nodup_iff).mpr front
  depth := by simp; omega
  inFrame := h.inFrame

end

theorem Outbox.limits_empty : Outbox.empty.Limits where
  pending e := by simp [Outbox.empty]
  amounts := by simp [Outbox.empty]
  deltas := Nat.zero_le _
  entries := List.nodup_nil
  zeros := List.nodup_nil
  depth := Nat.zero_le _
  inFrame := Nat.zero_le _

end Sys2Proof.Machine

namespace Sys2Proof.Machine

open Sys2Proof.Safety

/-! ### What the events of a sample instant can do -/

/-- Whatever a move of the input's own detector and an addition keep, one event of the input keeps (R109 to R111). -/
theorem State.takeInputEvent_induction {P : State → Prop} {i : Fin 8}
    (moved : ∀ (t : State) d, P t → P { t with detectors := t.detectors.set (pairOf i) d })
    (added : ∀ t e amount, P t → P (State.addPending t e amount)) {s : State} (start : P s) :
    P (s.takeInputEvent i) := by
  have mapped : ∀ t map, P t → P (State.addMap t map) := by
    intro t map ht
    rcases t.addMap_cases map with ⟨-, eq⟩ | ⟨e, -, eq⟩ <;> rw [eq]
    · exact ht
    · exact added t e _ ht
  have pair : ∀ now, P (s.takePairChange i now) := by
    intro now
    unfold State.takePairChange
    dsimp only
    split
    · exact moved s _ start
    all_goals exact mapped _ _ (moved s _ start)
  unfold State.takeInputEvent
  dsimp only
  split
  · split
    · exact mapped s _ start
    · exact start
  · exact pair _
  · exact pair _
  · exact start

/-! ### What the commands do to the Outbox -/

/-- The limits as a law of the station. -/
def State.OutboxLimits (s : State) : Prop := s.outbox.Limits

section
variable {s : State} (h : s.OutboxLimits)
include h

/-- Whatever leaves the Outbox as it is keeps its limits. -/
theorem outboxLimits_of_sameOutbox {t : State} (same : t.outbox = s.outbox) : t.OutboxLimits := by
  rw [State.OutboxLimits, same]
  exact h

theorem leads_outboxLimits_self : Leads State.OutboxLimits (.next s) := (leads_next _ _).mpr h

/-- An event that leads to `t` where it can arise, and else leaves the station as it is. -/
theorem leads_outboxLimits_event {c : Prop} [Decidable c] {t : State} (taken : t.OutboxLimits) :
    Leads State.OutboxLimits (if c then .next t else .next s) :=
  leads_ite (fun _ => (leads_next _ _).mpr taken) (fun _ => leads_outboxLimits_self h)

theorem outboxLimits_addPending (e : Entry) (amount : Int) : (s.addPending e amount).OutboxLimits :=
  Outbox.Limits.add h e amount

theorem outboxLimits_takeInputEvent (i : Fin 8) : (s.takeInputEvent i).OutboxLimits :=
  State.takeInputEvent_induction (fun _ _ ht => ht) (fun _ e amount ht => Outbox.Limits.add ht e amount) h

theorem outboxLimits_takeSamples (levels : Byte) (order : List (Fin 8)) : (s.takeSamples levels order).OutboxLimits :=
  State.takeSamples_induction levels order s (fun _ i ht => outboxLimits_takeInputEvent ht i)
    (outboxLimits_of_sameOutbox h rfl)

/-! ### Requests -/

theorem outboxLimits_takeRequest {code : Byte} {operands : List Byte} {effect : State → State × Answer}
    (done : (effect s).1.OutboxLimits) : Leads State.OutboxLimits (takeRequest code operands effect s) :=
  leads_takeRequest h (fun _ _ ht => outboxLimits_of_sameOutbox ht rfl) done

theorem outboxLimits_requestZero (entry : Byte) : (s.requestZero entry).1.OutboxLimits := by
  rcases s.requestZero_cases entry with ⟨_, eq⟩ | ⟨e, _, _, _, listed, inFlight, room, eq⟩ <;> rw [eq]
  · exact h
  · exact Outbox.Limits.request h listed inFlight room

theorem outboxLimits_requestAdjust (entry : Byte) (amount : Half) : (s.requestAdjust entry amount).1.OutboxLimits := by
  rcases s.requestAdjust_cases entry amount with ⟨_, eq⟩ | ⟨e, _, _, _, eq⟩ <;> rw [eq]
  · exact h
  · exact outboxLimits_addPending h e _

theorem outboxLimits_requestFreeze : s.requestFreeze.1.OutboxLimits := by
  rcases s.requestFreeze_cases with ⟨_, eq⟩ | ⟨_, eq⟩ <;> rw [eq]
  · exact h
  · exact { h with }

theorem outboxLimits_requestLeave : s.requestLeave.1.OutboxLimits := by
  rcases s.requestLeave_cases with ⟨_, eq⟩ | ⟨_, eq⟩ <;> rw [eq]
  · exact h
  · exact { h with }

theorem outboxLimits_releaseSnapshot : s.releaseSnapshot.1.OutboxLimits := by
  unfold State.releaseSnapshot
  split <;> exact outboxLimits_of_sameOutbox h rfl

theorem outboxLimits_requestOutput (output level : Byte) : (s.requestOutput output level).1.OutboxLimits := by
  rcases s.requestOutput_cases output level with ⟨_, eq⟩ | ⟨o, l, _, _, _, _, eq⟩ <;>
    exact outboxLimits_of_sameOutbox h (by rw [eq])

theorem outboxLimits_requestRejoin (lmark lbeat : Level) : (s.requestRejoin lmark lbeat).1.OutboxLimits := by
  rcases s.requestRejoin_cases lmark lbeat with eq | ⟨_, eq⟩ <;> rw [eq] <;> exact outboxLimits_of_sameOutbox h rfl

theorem outboxLimits_requestWrite (offset : Half) (length : Byte) (data : List Byte) :
    (s.requestWrite offset length data).1.OutboxLimits := by
  rcases s.requestWrite_cases offset length data with ⟨_, eq⟩ | ⟨_, _, _, _, eq⟩ <;>
    exact outboxLimits_of_sameOutbox h (by rw [eq])

theorem outboxLimits_requestCommit (lmark lbeat : Level) : (s.requestCommit lmark lbeat).1.OutboxLimits := by
  rcases s.requestCommit_cases lmark lbeat with ⟨_, eq⟩ | ⟨_, _, _, eq⟩ | ⟨_, _, eq⟩ <;> rw [eq] <;>
    exact outboxLimits_of_sameOutbox h rfl

theorem outboxLimits_execSetupWrite (offset : Half) (length : Byte) (data : List Byte) :
    Leads State.OutboxLimits (execSetupWrite offset length data s) :=
  leads_ite (fun _ => outboxLimits_takeRequest h (outboxLimits_requestWrite h offset length data))
    (fun _ => leads_outboxLimits_self h)

theorem outboxLimits_execUnknown (code : Byte) : Leads State.OutboxLimits (execUnknown code s) := by
  unfold execUnknown
  split
  · exact outboxLimits_takeRequest h h
  · exact leads_outboxLimits_self h

/-! ### The edges of the tap, resets and timers -/

theorem outboxLimits_idle : s.idle.OutboxLimits := by
  rcases s.idle_cases with ⟨-, eq⟩ | ⟨-, eq⟩ <;> exact outboxLimits_of_sameOutbox h (by rw [eq])

theorem outboxLimits_execTselFall (fall : SelectFall) : Leads State.OutboxLimits (execTselFall fall s) := by
  unfold execTselFall
  refine leads_ite (fun _ => ?_) fun _ => leads_ite (fun _ => ?_) fun _ => leads_ite (fun _ => ?_) fun _ => ?_
  all_goals exact (leads_next _ _).mpr (outboxLimits_of_sameOutbox h rfl)

theorem outboxLimits_execTselRise : Leads State.OutboxLimits (execTselRise s) := by
  unfold execTselRise
  refine leads_ite (fun _ => ?_) fun _ => leads_ite (fun _ => ?_) fun _ => ?_
  all_goals exact (leads_next _ _).mpr (outboxLimits_of_sameOutbox h rfl)

theorem outboxLimits_execTclkSamplingEdge (tdi : Level) (elapsed : Nat) :
    Leads State.OutboxLimits (execTclkSamplingEdge tdi elapsed s) := by
  simp only [execTclkSamplingEdge, State.withEdge_eq]
  split
  case h_5 => split <;> exact (leads_next _ _).mpr (outboxLimits_of_sameOutbox h rfl)
  all_goals exact (leads_next _ _).mpr (outboxLimits_of_sameOutbox h rfl)

theorem outboxLimits_execTakeNoticeDelivered : Leads State.OutboxLimits (execTakeNoticeDelivered s) := by
  unfold execTakeNoticeDelivered
  split <;> exact (leads_next _ _).mpr (outboxLimits_of_sameOutbox h rfl)

theorem outboxLimits_execResetPinFall : Leads State.OutboxLimits (execResetPinFall s) := by
  unfold execResetPinFall
  split <;> rw [leads_next]
  · exact Outbox.limits_empty
  · exact h

theorem outboxLimits_execResetEnd (fmt1 fmt0 : Level) : Leads State.OutboxLimits (execResetEnd fmt1 fmt0 s) := by
  unfold execResetEnd
  split <;> exact (leads_next _ _).mpr (outboxLimits_of_sameOutbox h rfl)

/-! ### The tally link -/

theorem outboxLimits_execQuietTimerExpiry : Leads State.OutboxLimits (execQuietTimerExpiry s) := by
  refine leads_ite (fun _ => ?_) (fun _ => leads_outboxLimits_self h)
  split <;> exact (leads_next _ _).mpr (outboxLimits_of_sameOutbox h rfl)

theorem outboxLimits_compose : s.compose.OutboxLimits := by
  unfold State.compose
  split
  · exact Outbox.Limits.afterComposition h _
  · exact h

theorem outboxLimits_execLbeatHalfPeriodExpiry : Leads State.OutboxLimits (execLbeatHalfPeriodExpiry s) := by
  refine leads_ite (fun _ => ?_) (fun _ => leads_outboxLimits_self h)
  split <;> exact (leads_next _ _).mpr (outboxLimits_of_sameOutbox h rfl)

/-- A collision leaves the Outbox, or returns what is in flight with the change to FAULT (R54, R72). -/
theorem outboxLimits_takeCollision (position : Nat) : (s.takeCollision position).OutboxLimits := by
  rcases s.takeCollision_cases position with ⟨-, eq⟩ | ⟨-, eq⟩ <;> rw [eq]
  · exact h
  · exact Outbox.Limits.giveBack h _

theorem outboxLimits_sampleSlotBit (ldata : Level) : (s.sampleSlotBit ldata).OutboxLimits := by
  have recorded : (s.recordBit ldata).OutboxLimits := outboxLimits_of_sameOutbox h rfl
  have compared : (if s.firstCollision ldata then
      (s.recordBit ldata).takeCollision (s.recordBit ldata).link.bit else s.recordBit ldata).OutboxLimits := by
    split
    · exact outboxLimits_takeCollision recorded _
    · exact recorded
  rcases s.sampleSlotBit_cases ldata with eq | ⟨-, result, -, eq⟩ <;> rw [eq]
  · exact compared
  · exact outboxLimits_of_sameOutbox compared rfl

theorem outboxLimits_takeRise (ldata : Level) : (s.takeRise ldata).OutboxLimits := by
  rcases s.takeRise_cases ldata with ⟨-, eq⟩ | ⟨-, eq⟩ <;> rw [eq]
  · refine outboxLimits_sampleSlotBit ?_ ldata
    exact outboxLimits_of_sameOutbox h rfl
  · exact outboxLimits_of_sameOutbox h rfl

theorem outboxLimits_takeOutcome (order : List NoticeBlock) : (s.takeOutcome order).OutboxLimits := by
  show (s.outboxAtClose s.outcome _).1.Limits
  rcases s.outboxAtClose_cases s.outcome _ with ⟨-, -, eq⟩ | eq | eq <;> rw [eq]
  · exact Outbox.Limits.retire h
  · exact Outbox.Limits.giveBack h _
  · exact h

/-- A change of station state at a close leaves the Outbox (R72). -/
theorem outboxLimits_changeAtClose (cause : Cause) : (s.changeAtClose cause).OutboxLimits := by
  refine outboxLimits_of_sameOutbox h ?_
  cases cause <;> simp [State.changeAtClose, State.enterJoining, State.foundTable]

theorem outboxLimits_closeRound (order : List NoticeBlock) : (s.closeRound order).OutboxLimits := by
  have taken := outboxLimits_takeOutcome h order
  rcases s.closeRound_cases order with ⟨-, eq⟩ | ⟨cause, -, eq⟩ <;> rw [eq]
  · exact taken
  · exact outboxLimits_changeAtClose taken cause

/-- Every command keeps the limits: it leaves the Outbox, or is one of the operations of Chapter 4 on it. -/
theorem outboxLimits_exec (c : Instr) : Leads State.OutboxLimits (exec c s) := by
  cases c with
  | powerOnReset => exact (leads_next _ _).mpr Outbox.limits_empty
  | resetPinFall => exact outboxLimits_execResetPinFall h
  | resetEnd fmt1 fmt0 => exact outboxLimits_execResetEnd h fmt1 fmt0
  | tselFall fall => exact outboxLimits_execTselFall h fall
  | tselRise => exact outboxLimits_execTselRise h
  | unknown code => exact outboxLimits_execUnknown h code
  | status | readEntry | readOutbox | readRoster | takeNotice | readSnapshot | setupRead =>
    exact outboxLimits_takeRequest h h
  | takeNoticeDelivered => exact outboxLimits_execTakeNoticeDelivered h
  | releaseSnapshot => exact outboxLimits_takeRequest h (outboxLimits_releaseSnapshot h)
  | freeze => exact outboxLimits_takeRequest h (outboxLimits_requestFreeze h)
  | zero entry =>
    exact outboxLimits_takeRequest (effect := fun t => t.requestZero entry) h (outboxLimits_requestZero h entry)
  | adjust entry amount =>
    exact outboxLimits_takeRequest (effect := fun t => t.requestAdjust entry amount) h
      (outboxLimits_requestAdjust h entry amount)
  | setOutput output level =>
    exact outboxLimits_takeRequest (effect := fun t => t.requestOutput output level) h
      (outboxLimits_requestOutput h output level)
  | leave => exact outboxLimits_takeRequest h (outboxLimits_requestLeave h)
  | rejoin lmark lbeat =>
    exact outboxLimits_takeRequest (effect := fun t => t.requestRejoin lmark lbeat) h
      (outboxLimits_requestRejoin h lmark lbeat)
  | setupWrite offset length data => exact outboxLimits_execSetupWrite h offset length data
  | setupCommit lmark lbeat =>
    exact outboxLimits_takeRequest (effect := fun t => t.requestCommit lmark lbeat) h
      (outboxLimits_requestCommit h lmark lbeat)
  | syncLmarkFall | syncLbeatChange | stallTimerExpiry | waitLmarkRise | passageTimerExpiry | pulseTimerExpiry
  | lbeatFall => exact leads_outboxLimits_event h (outboxLimits_of_sameOutbox h rfl)
  | quietTimerExpiry => exact outboxLimits_execQuietTimerExpiry h
  | roundTimerExpiry => exact leads_outboxLimits_event h (outboxLimits_compose h)
  | lbeatHalfPeriodExpiry => exact outboxLimits_execLbeatHalfPeriodExpiry h
  | ownFrameSent ldata | frameReceived ldata | lbeatRise ldata =>
    exact leads_outboxLimits_event h (outboxLimits_takeRise h ldata)
  | roundClose ldata order =>
    exact leads_outboxLimits_event h (outboxLimits_closeRound (outboxLimits_takeRise h ldata) order)
  | lmarkFallInRound | beatStuckExpiry => exact leads_outboxLimits_event h (Outbox.Limits.giveBack h _)
  | sampleInstant levels order => exact leads_outboxLimits_event h (outboxLimits_takeSamples h levels order)
  | tclkSamplingEdge tdi elapsed => exact outboxLimits_execTclkSamplingEdge h tdi elapsed

end

/-- Settles O56: a step is one command, or time in which only the tap moves. -/
theorem everyStepKeepsOutboxLimits : Obligations.EveryStepKeepsOutboxLimits := by
  unfold Obligations.EveryStepKeepsOutboxLimits
  intro s t h stepped
  have limits : s.OutboxLimits := (outboxWf_iff_limits s).mp h
  refine (outboxWf_iff_limits t).mpr ?_
  unfold step at stepped
  split at stepped
  · exact Host.Outcome.next.inj stepped ▸ outboxLimits_idle limits
  · next c rest _ =>
    have queued : State.OutboxLimits { s with pending := rest } := limits
    exact outboxLimits_exec queued c t stepped

end Sys2Proof.Machine

namespace Sys2Proof.Machine

/-! ### The order in which a composition takes entries -/

/-- How far an entry stands behind the cursor in the cyclic order (R65). -/
def Outbox.distance (o : Outbox) (e : Entry) : Nat := (e - o.cursor).val

/-- The entries with something to send, in cursor order (R65). -/
def Outbox.candidates (o : Outbox) : List Entry := (entriesFrom o.cursor).filter fun e => decide (o.pending[e] ≠ 0)

theorem Outbox.selection_eq_take (o : Outbox) : o.selection = o.candidates.take 8 := rfl

theorem mem_entriesFrom (start e : Entry) : e ∈ entriesFrom start :=
  List.mem_map.mpr ⟨e - start, List.mem_finRange _, by simp⟩

theorem Outbox.mem_candidates {o : Outbox} {e : Entry} : e ∈ o.candidates ↔ o.pending[e] ≠ 0 := by
  simp [Outbox.candidates, mem_entriesFrom]

/-- The cyclic order rises in the distance from the cursor (R65). -/
theorem Outbox.candidates_pairwise (o : Outbox) : o.candidates.Pairwise fun x y => o.distance x < o.distance y := by
  refine List.Pairwise.filter _ ?_
  rw [entriesFrom, List.pairwise_map]
  refine (List.pairwise_lt_finRange 32).imp fun {i j} (lt : i < j) => ?_
  simpa [Outbox.distance] using lt

theorem Outbox.selection_pairwise (o : Outbox) : o.selection.Pairwise fun x y => o.distance x < o.distance y :=
  o.candidates_pairwise.sublist (List.take_sublist _ _)

/-- An entry with something to send is passed over only behind eight that are taken (R65). -/
theorem Outbox.passed_over {o : Outbox} {e : Entry} (pending : o.pending[e] ≠ 0) (left : e ∉ o.selection) :
    o.selection.length = 8 ∧ ∀ x ∈ o.selection, o.distance x < o.distance e := by
  have parts : o.selection ++ o.candidates.drop 8 = o.candidates := List.take_append_drop 8 o.candidates
  have candidate := Outbox.mem_candidates.mpr pending
  have ordered := o.candidates_pairwise
  rw [← parts] at candidate ordered
  have later := (List.mem_append.mp candidate).resolve_left left
  obtain ⟨-, -, across⟩ := List.pairwise_append.mp ordered
  have some_left := List.length_pos_of_mem later
  rw [List.length_drop] at some_left
  refine ⟨?_, fun x taken => across x taken e later⟩
  rw [Outbox.selection_eq_take, List.length_take]
  omega

/-! ### What a composition leaves at one entry -/

section
variable (o : Outbox) (member : Bool)

@[simp] theorem Outbox.afterComposition_flightDeltas : (o.afterComposition member).flightDeltas = o.deltasTaken := rfl

/-- What is taken of an entry is taken off its pending amount, and its saturation flag is cleared (R62, R65). -/
theorem Outbox.afterComposition_of_taken {e : Entry} (taken : e ∈ o.selection) :
    (o.afterComposition member).pending[e] = o.pending[e] - amountSent o.pending[e] ∧
    (o.afterComposition member).saturated[e] = false := by
  simp [Outbox.afterComposition, taken]

theorem Outbox.afterComposition_of_left {e : Entry} (left : e ∉ o.selection) :
    (o.afterComposition member).pending[e] = o.pending[e] ∧
    (o.afterComposition member).saturated[e] = o.saturated[e] := by
  simp [Outbox.afterComposition, left]

end

theorem Outbox.mem_selection_of_mem_deltasTaken {o : Outbox} {d : Delta} (taken : d ∈ o.deltasTaken) :
    d.entry ∈ o.selection := o.deltasTaken_entries ▸ List.mem_map_of_mem taken

/-- Settles O25: the entries taken are the first eight of the cursor order with something to send. -/
theorem selectionMovesPendingIntoFlight : Obligations.SelectionMovesPendingIntoFlight := by
  unfold Obligations.SelectionMovesPendingIntoFlight
  intro o member
  simp only [Outbox.afterComposition_flightDeltas, Outbox.deltasTaken_entries]
  refine ⟨o.selection_nodup, o.selection_length, List.pairwise_map.mpr o.selection_pairwise, fun d taken => ?_,
    fun e left => Outbox.afterComposition_of_left o member left, fun e pending left => Outbox.passed_over pending left,
    rfl⟩
  obtain ⟨pending, sent⟩ := Outbox.mem_deltasTaken taken
  obtain ⟨reduced, cleared⟩ := o.afterComposition_of_taken member (Outbox.mem_selection_of_mem_deltasTaken taken)
  exact ⟨pending, by rw [reduced, sent]; omega, cleared, sent⟩

/-! ### The additions of a return, entry by entry -/

/-- An addition leaves every other entry as it is (R62). -/
theorem Outbox.add_other (o : Outbox) {e x : Entry} (amount : Int) (ne : x ≠ e) :
    (o.add e amount).1.pending[x] = o.pending[x] ∧ (o.add e amount).1.saturated[x] = o.saturated[x] := by
  have ne : e.val ≠ x.val := fun eq => ne (Fin.ext eq.symm)
  rcases o.add_cases e amount with ⟨-, eq⟩ | ⟨-, -, eq⟩ | ⟨-, -, eq⟩ <;> rw [eq] <;> simp [ne]

/-- An addition holds the sum to the limit, and sets the saturation flag when it cuts it (R62). -/
theorem Outbox.add_same (o : Outbox) (e : Entry) (amount : Int) :
    (o.add e amount).1.pending[e] = saturate (o.pending[e] + amount) ∧
    ((o.add e amount).1.saturated[e] = true ↔
      o.saturated[e] = true ∨ saturate (o.pending[e] + amount) ≠ o.pending[e] + amount) := by
  refine ⟨by simp, ?_⟩
  rcases o.add_cases e amount with ⟨whole, eq⟩ | ⟨cut, -, eq⟩ | ⟨cut, -, eq⟩ <;> rw [eq]
  · exact (or_iff_left (not_not_intro whole)).symm
  all_goals exact iff_of_true (by simp) (.inr cut)

/-- What one addition posts: PENDING_SATURATED for a loss while the flag is clear (R62, entry 13). -/
def Outbox.addNotices (cs : Option Half) (o : Outbox) (e : Entry) (amount : Int) : List Notice :=
  ((o.add e amount).2.map (saturatedNotice cs e)).toList

theorem Outbox.addNotices_eq (cs : Option Half) (o : Outbox) (e : Entry) (amount : Int) :
    o.addNotices cs e amount =
      if o.pending[e] + amount = saturate (o.pending[e] + amount) ∨ o.saturated[e] = true then []
      else [saturatedNotice cs e (amountLost (o.pending[e] + amount))] := by
  unfold Outbox.addNotices
  rcases o.add_cases e amount with ⟨whole, eq⟩ | ⟨cut, set, eq⟩ | ⟨cut, clear, eq⟩ <;> rw [eq]
  · rw [if_pos (.inl whole.symm)]; rfl
  · rw [if_pos (.inr set)]; rfl
  · rw [if_neg]
    · rfl
    · rintro (whole | set)
      · exact cut whole.symm
      · simp [clear] at set

theorem Outbox.addNoting_eq (cs : Option Half) (on : Outbox × List Notice) (e : Entry) (amount : Int) :
    Outbox.addNoting cs on e amount = ((on.1.add e amount).1, on.2 ++ on.1.addNotices cs e amount) := rfl

/-- The notices that stand already do not bear on the additions that follow. -/
theorem Outbox.foldl_addNoting (cs : Option Half) (deltas : List Delta) (o : Outbox) (ns : List Notice) :
    deltas.foldl (fun on d => Outbox.addNoting cs on d.entry d.amount.toInt) (o, ns) =
      ((o.addAll cs deltas).1, ns ++ (o.addAll cs deltas).2) := by
  unfold Outbox.addAll
  induction deltas generalizing o ns with
  | nil => simp
  | cons d rest ih =>
    rw [List.foldl_cons, List.foldl_cons, Outbox.addNoting_eq, Outbox.addNoting_eq, ih, ih _ (_ ++ _)]
    simp

theorem Outbox.addAll_cons (cs : Option Half) (o : Outbox) (d : Delta) (rest : List Delta) :
    o.addAll cs (d :: rest) =
      (((o.add d.entry d.amount.toInt).1.addAll cs rest).1,
        o.addNotices cs d.entry d.amount.toInt ++ ((o.add d.entry d.amount.toInt).1.addAll cs rest).2) :=
  Outbox.foldl_addNoting cs rest _ _

/-- The additions of a return leave the entries that they do not name. -/
theorem Outbox.addAll_other (cs : Option Half) (deltas : List Delta) (o : Outbox) {e : Entry}
    (unnamed : ∀ d ∈ deltas, d.entry ≠ e) :
    (o.addAll cs deltas).1.pending[e] = o.pending[e] ∧ (o.addAll cs deltas).1.saturated[e] = o.saturated[e] := by
  induction deltas generalizing o with
  | nil => exact ⟨rfl, rfl⟩
  | cons d rest ih =>
    obtain ⟨head, tail⟩ := List.forall_mem_cons.mp unnamed
    have first := o.add_other d.amount.toInt (Ne.symm head)
    have later := ih (o.add d.entry d.amount.toInt).1 tail
    rw [Outbox.addAll_cons]
    exact ⟨later.1.trans first.1, later.2.trans first.2⟩

section
variable (cs : Option Half) (deltas : List Delta) (o : Outbox) (distinct : (deltas.map fun d => d.entry).Nodup)
include distinct

/-- A delta of a return finds its entry as the return began, and no later one touches it. -/
theorem Outbox.addAll_same {d : Delta} (inFlight : d ∈ deltas) :
    (o.addAll cs deltas).1.pending[d.entry] = saturate (o.pending[d.entry] + d.amount.toInt) ∧
    ((o.addAll cs deltas).1.saturated[d.entry] = true ↔ o.saturated[d.entry] = true ∨
      saturate (o.pending[d.entry] + d.amount.toInt) ≠ o.pending[d.entry] + d.amount.toInt) := by
  induction deltas generalizing o with
  | nil => simp at inFlight
  | cons first rest ih =>
    obtain ⟨apart, distinct⟩ := List.nodup_cons.mp distinct
    rw [Outbox.addAll_cons]
    rcases List.mem_cons.mp inFlight with rfl | later
    · have kept := Outbox.addAll_other cs rest (o.add d.entry d.amount.toInt).1 (e := d.entry)
        fun x there eq => apart (List.mem_map.mpr ⟨x, there, eq⟩)
      rw [kept.1, kept.2]
      exact o.add_same d.entry d.amount.toInt
    · have ne : d.entry ≠ first.entry := fun eq => apart (List.mem_map.mpr ⟨d, later, eq⟩)
      obtain ⟨pending, saturated⟩ := o.add_other first.amount.toInt ne
      have added := ih (o.add first.entry first.amount.toInt).1 distinct later
      rwa [pending, saturated] at added

/-- The notices of a return come in frame order, each as if its delta were added alone. -/
theorem Outbox.addAll_notices : (o.addAll cs deltas).2 =
    deltas.flatMap fun d => o.addNotices cs d.entry d.amount.toInt := by
  induction deltas generalizing o with
  | nil => rfl
  | cons first rest ih =>
    obtain ⟨apart, distinct⟩ := List.nodup_cons.mp distinct
    rw [Outbox.addAll_cons, List.flatMap_cons, ih _ distinct]
    refine congrArg _ (List.flatMap_congr fun d later => ?_)
    have ne : d.entry ≠ first.entry := fun eq => apart (List.mem_map.mpr ⟨d, later, eq⟩)
    obtain ⟨pending, saturated⟩ := o.add_other first.amount.toInt ne
    rw [Outbox.addNotices_eq, Outbox.addNotices_eq, pending, saturated]

end

end Sys2Proof.Machine

namespace Sys2Proof.Machine

/-! ### A return, entry by entry -/

section
variable (cs : Option Half) (o : Outbox)

theorem Outbox.giveBack_pending_of_inFlight (distinct : (o.flightDeltas.map fun d => d.entry).Nodup) {d : Delta}
    (inFlight : d ∈ o.flightDeltas) :
    (o.giveBack cs).1.pending[d.entry] = saturate (o.pending[d.entry] + d.amount.toInt) ∧
    ((o.giveBack cs).1.saturated[d.entry] = true ↔ o.saturated[d.entry] = true ∨
      saturate (o.pending[d.entry] + d.amount.toInt) ≠ o.pending[d.entry] + d.amount.toInt) := by
  rw [Outbox.giveBack_eq]
  exact o.addAll_same cs o.flightDeltas distinct inFlight

theorem Outbox.giveBack_pending_of_other {e : Entry} (unnamed : ∀ d ∈ o.flightDeltas, d.entry ≠ e) :
    (o.giveBack cs).1.pending[e] = o.pending[e] ∧ (o.giveBack cs).1.saturated[e] = o.saturated[e] := by
  rw [Outbox.giveBack_eq]
  exact Outbox.addAll_other cs o.flightDeltas o unnamed

/-- The notices of a return are those of its additions, in frame order (R70, entry 13). -/
theorem Outbox.giveBack_notices (distinct : (o.flightDeltas.map fun d => d.entry).Nodup) :
    (o.giveBack cs).2 = o.flightDeltas.flatMap fun d => o.addNotices cs d.entry d.amount.toInt := by
  rw [Outbox.giveBack_eq]
  exact o.addAll_notices cs o.flightDeltas distinct

end

/-! ### A composition and the return of what it took -/

section
variable {o : Outbox} (member : Bool) (cs : Option Half)

/-- What a delta of a composition gives back is what the composition took (R65, R70). -/
theorem Outbox.sum_of_mem_deltasTaken {d : Delta} (taken : d ∈ o.deltasTaken) :
    (o.afterComposition member).pending[d.entry] + d.amount.toInt = o.pending[d.entry] := by
  rw [(o.afterComposition_of_taken member (Outbox.mem_selection_of_mem_deltasTaken taken)).1,
    (Outbox.mem_deltasTaken taken).2]
  omega

/-- No amount is lost between a composition and the return of what it took. -/
theorem Outbox.pending_giveBack_afterComposition (inRange : PendingInRange o.pending) :
    ((o.afterComposition member).giveBack cs).1.pending = o.pending := by
  have distinct : (o.deltasTaken.map fun d => d.entry).Nodup := o.deltasTaken_entries ▸ o.selection_nodup
  suffices ∀ e : Entry, ((o.afterComposition member).giveBack cs).1.pending[e] = o.pending[e] from
    Vector.ext fun i inside => this ⟨i, inside⟩
  intro e
  by_cases selected : e ∈ o.selection
  · rw [← o.deltasTaken_entries] at selected
    obtain ⟨d, taken, rfl⟩ := List.mem_map.mp selected
    have back := ((o.afterComposition member).giveBack_pending_of_inFlight cs distinct taken).1
    rwa [Outbox.sum_of_mem_deltasTaken member taken, saturate_of_bounds (inRange _).1 (inRange _).2] at back
  · have unnamed : ∀ d ∈ o.deltasTaken, d.entry ≠ e := fun d taken names =>
      selected (names ▸ Outbox.mem_selection_of_mem_deltasTaken taken)
    have back := ((o.afterComposition member).giveBack_pending_of_other cs unnamed).1
    exact back.trans (o.afterComposition_of_left member selected).1

/-- Nothing is cut between a composition and the return of what it took. -/
theorem Outbox.notices_giveBack_afterComposition (inRange : PendingInRange o.pending) :
    ((o.afterComposition member).giveBack cs).2 = [] := by
  have distinct : (o.deltasTaken.map fun d => d.entry).Nodup := o.deltasTaken_entries ▸ o.selection_nodup
  rw [(o.afterComposition member).giveBack_notices cs distinct, List.flatMap_eq_nil_iff]
  intro d taken
  rw [Outbox.addNotices_eq, if_pos]
  rw [Outbox.sum_of_mem_deltasTaken member taken, saturate_of_bounds (inRange _).1 (inRange _).2]
  exact .inl rfl

end

/-- Settles O34: a return entry by entry, and the return of what a composition took. -/
theorem returnRestoresOutbox : Obligations.ReturnRestoresOutbox := by
  unfold Obligations.ReturnRestoresOutbox
  refine ⟨fun o cs distinct => ?_, fun o member cs _ inRange => ?_⟩
  · refine ⟨fun d inFlight => ?_, fun e unnamed => o.giveBack_pending_of_other cs unnamed, ?_, ?_, ?_, ?_,
      o.giveBack_flightEmpty cs, ?_⟩
    · obtain ⟨pending, saturated⟩ := o.giveBack_pending_of_inFlight cs distinct inFlight
      exact ⟨pending, pending ▸ saturated⟩
    · rw [Outbox.giveBack_eq]
    · rw [Outbox.giveBack_eq]
    · rw [Outbox.giveBack_eq]
    · rw [Outbox.giveBack_eq]
    · rw [o.giveBack_notices cs distinct]
      exact List.flatMap_congr fun d _ => o.addNotices_eq cs d.entry d.amount.toInt
  · refine ⟨Outbox.pending_giveBack_afterComposition member cs inRange, ?_, ?_, ?_, Outbox.giveBack_flightEmpty _ _,
      Outbox.notices_giveBack_afterComposition member cs inRange⟩
    · rw [Outbox.giveBack_eq]
      exact List.take_append_drop 2 o.zeroList
    · rw [Outbox.giveBack_eq]
      exact Bool.false_or _
    · rw [Outbox.giveBack_eq]
      show (o.leave && !member || o.leave && member) = o.leave
      cases member <;> simp

end Sys2Proof.Machine

namespace Sys2Proof.Machine

open Sys2Proof.Safety

/-! ### A sample instant as Safety spells it -/

/-- One input after a sample instant, as Safety has it (R103 to R105, R108). -/
theorem State.sampleInput_eq (s : State) (levels : Byte) (i : Fin 8) :
    (sampleInput s.settings levels i s.inputs.inputs[i]).1 =
      if s.settings.inputMode i = .unused then s.inputs.inputs[i]
      else if s.inputs.inputs[i].primed = false then { primed := true, level := sampledLevel levels i, run := 0 }
      else if s.inputs.inputs[i].level = sampledLevel levels i then { s.inputs.inputs[i] with run := 0 }
      else if acceptsChange s levels i then { primed := true, level := sampledLevel levels i, run := 0 }
      else { s.inputs.inputs[i] with run := s.inputs.inputs[i].run + 1 } := by
  unfold sampleInput
  by_cases unused : s.settings.inputMode i = .unused
  · rw [if_pos unused, if_pos unused]
  · rw [if_neg unused, if_neg unused]
    rcases filterInput_cases (s.settings.settleCount i) s.inputs.inputs[i] (sampledLevel levels i) with
      ⟨primed, eq⟩ | ⟨primed, same, eq⟩ | ⟨primed, differs, short, eq⟩ | ⟨primed, differs, full, eq⟩ <;> rw [eq]
    · rw [if_pos primed]
    · rw [if_neg (ne_false_of_eq_true primed), if_pos same.symm]
    · have early : ¬acceptsChange s levels i := fun ⟨_, _, _, reached⟩ => by omega
      rw [if_neg (ne_false_of_eq_true primed), if_neg (Ne.symm differs), if_neg early]
    · have reached : acceptsChange s levels i := ⟨unused, primed, Ne.symm differs, full⟩
      rw [if_neg (ne_false_of_eq_true primed), if_neg (Ne.symm differs), if_pos reached, primed]

/-- Every input read and every pair started, as Safety has it (R103 to R105, R115). -/
theorem State.sampled_eq_samplesRead (s : State) (levels : Byte) :
    { s with inputs := { s.inputs with inputs := s.sampled levels }, detectors := s.startedDetectors levels } =
      samplesRead s levels := by
  have inputs : s.sampled levels = (samplesRead s levels).inputs.inputs :=
    congrArg Vector.ofFn (funext fun i => s.sampleInput_eq levels i)
  have detectors : s.startedDetectors levels = (samplesRead s levels).detectors :=
    congrArg Vector.ofFn (funext fun p => if_congr (by simp only [Bool.and_eq_true, Bool.not_eq_true']) rfl rfl)
  rw [inputs, detectors]
  rfl

/-- The accepted changes of a sample instant, in the order in which they are taken (R107, entry 10). -/
def State.acceptedChanges (s : State) (levels : Byte) (order : List (Fin 8)) : List (Fin 8) :=
  (eventOrder order).filter fun i => decide (acceptsChange s levels i)

theorem State.mem_acceptedChanges {s : State} {levels : Byte} {order : List (Fin 8)} {i : Fin 8} :
    i ∈ s.acceptedChanges levels order ↔ acceptsChange s levels i := by
  rw [State.acceptedChanges, List.mem_filter, decide_eq_true_iff]
  exact and_iff_right (mem_eventOrder order i)

theorem State.takeSamples_eq (s : State) (levels : Byte) (order : List (Fin 8)) :
    s.takeSamples levels order = (s.acceptedChanges levels order).foldl State.takeInputEvent (samplesRead s levels) := by
  have events : s.changesAt levels = fun i => decide (acceptsChange s levels i) :=
    funext fun i => s.changesAt_eq_acceptsChange levels i
  unfold State.takeSamples State.acceptedChanges
  dsimp only
  rw [events, s.sampled_eq_samplesRead levels]

/-- Whatever the moves of their own detectors and the additions keep, several events keep. -/
theorem State.takeEvents_induction {P : State → Prop} (events : List (Fin 8))
    (moved : ∀ i ∈ events, ∀ (t : State) d, P t → P { t with detectors := t.detectors.set (pairOf i) d })
    (added : ∀ t e amount, P t → P (State.addPending t e amount)) (s : State) (start : P s) :
    P (events.foldl State.takeInputEvent s) := by
  induction events generalizing s with
  | nil => exact start
  | cons i rest ih =>
    obtain ⟨first, later⟩ := List.forall_mem_cons.mp moved
    exact ih later _ (State.takeInputEvent_induction first added start)

/-! ### What a sample instant leaves -/

section
variable (s : State) (levels : Byte) (order : List (Fin 8))

/-- A sample instant moves detectors, adds to the Outbox and posts, once the inputs have been read. -/
theorem State.takeSamples_frame : s.takeSamples levels order = { s with
    inputs := (samplesRead s levels).inputs, detectors := (s.takeSamples levels order).detectors
    outbox := (s.takeSamples levels order).outbox, notices := (s.takeSamples levels order).notices } := by
  rw [State.takeSamples_eq]
  refine State.takeEvents_induction (P := fun t => t = { s with
    inputs := (samplesRead s levels).inputs, detectors := t.detectors, outbox := t.outbox, notices := t.notices })
    _ (fun i _ t d ht => ?_) (fun t e amount ht => ?_) _ rfl
  · exact congrArg (fun u : State => { u with detectors := t.detectors.set (pairOf i) d }) ht
  · exact congrArg (fun u : State => { u with
      outbox := (t.addPending e amount).outbox, notices := (t.addPending e amount).notices }) ht

/-- A sample instant touches pending amounts and saturation flags of the Outbox alone (R62). -/
theorem State.takeSamples_outbox : (s.takeSamples levels order).outbox = { s.outbox with
    pending := (s.takeSamples levels order).outbox.pending
    saturated := (s.takeSamples levels order).outbox.saturated } := by
  rw [State.takeSamples_eq]
  refine State.takeEvents_induction (P := fun t => t.outbox = { s.outbox with
    pending := t.outbox.pending, saturated := t.outbox.saturated }) _ (fun _ _ _ _ ht => ht)
    (fun t e amount ht => ?_) _ rfl
  rw [State.addPending_outbox, Outbox.addNoting_fst, Outbox.add_frame]
  exact congrArg (fun o : Outbox => { o with
    pending := (t.outbox.add e amount).1.pending, saturated := (t.outbox.add e amount).1.saturated }) ht

/-- A pair without an accepted change keeps the detector that the reading of the inputs left (R111). -/
theorem State.takeSamples_detector {p : Fin 4} (quiet : ∀ i, pairOf i = p → ¬acceptsChange s levels i) :
    (s.takeSamples levels order).detectors[p] = (samplesRead s levels).detectors[p] := by
  rw [State.takeSamples_eq]
  refine State.takeEvents_induction (P := fun t => t.detectors[p] = (samplesRead s levels).detectors[p]) _
    (fun i taken t d ht => ?_) (fun _ _ _ ht => ht) _ rfl
  have other : (pairOf i).val ≠ p.val := fun eq => quiet i (Fin.ext eq) (State.mem_acceptedChanges.mp taken)
  simpa [other] using ht

/-- Without an accepted change nothing follows the reading of the inputs. -/
theorem State.takeSamples_of_quiet (quiet : ∀ i, ¬acceptsChange s levels i) :
    s.takeSamples levels order = samplesRead s levels := by
  have none : s.acceptedChanges levels order = [] :=
    List.eq_nil_iff_forall_not_mem.mpr fun i taken => quiet i (State.mem_acceptedChanges.mp taken)
  rw [State.takeSamples_eq, none]
  rfl

end

theorem pairOf_eq_iff (i : Fin 8) (p : Fin 4) : pairOf i = p ↔ i = pairA p ∨ i = pairB p := by
  simp only [pairOf, pairA, pairB, Fin.ext_iff]
  omega

/-- Every input that is in use goes through the settle filter with its own settle count (R104, R105, R108). -/
theorem samplesRead_input (s : State) (levels : Byte) (i : Fin 8) : (samplesRead s levels).inputs.inputs[i] =
    if s.settings.inputMode i = .unused then s.inputs.inputs[i]
    else (filterInput (s.settings.settleCount i) s.inputs.inputs[i] (sampledLevel levels i)).1 := by
  rw [← s.sampled_eq_samplesRead levels]
  simp only [State.sampled, sampleInput, Fin.getElem_fin, Vector.getElem_ofFn]
  split <;> rfl

theorem samplesRead_detector (s : State) (levels : Byte) (p : Fin 4) : (samplesRead s levels).detectors[p] =
    if s.settings.pairInUse p = true ∧ s.inputs.inputs[pairA p].primed = false then
      Detector.start (decide (sampledLevel levels (pairA p) = s.settings.blockedLevel (pairA p)))
        (decide (sampledLevel levels (pairB p) = s.settings.blockedLevel (pairA p)))
    else s.detectors[p] := Vector.getElem_ofFn _

section
variable (s : State) (levels : Byte) (order : List (Fin 8))

/-- An input that is not in use, is primed only now, or reads as its filtered level has no accepted change (R105). -/
theorem not_acceptsChange {s : State} {levels : Byte} {i : Fin 8}
    (steady : s.settings.inputMode i = .unused ∨ s.inputs.inputs[i].primed = false ∨
      s.inputs.inputs[i].level = sampledLevel levels i ∨ s.inputs.inputs[i].run + 1 < s.settings.settleCount i) :
    ¬acceptsChange s levels i := by
  rintro ⟨used, primed, differs, settled⟩
  rcases steady with unused | fresh | same | short
  · exact used unused
  · exact ne_false_of_eq_true primed fresh
  · exact differs same
  · omega

/-- A pair primed at this instant starts from its two levels, and takes no event (R115). -/
theorem State.takeSamples_detector_started {p : Fin 4} (inUse : s.settings.pairInUse p = true)
    (freshA : s.inputs.inputs[pairA p].primed = false) (freshB : s.inputs.inputs[pairB p].primed = false) :
    (s.takeSamples levels order).detectors[p] =
      Detector.start (decide (sampledLevel levels (pairA p) = s.settings.blockedLevel (pairA p)))
        (decide (sampledLevel levels (pairB p) = s.settings.blockedLevel (pairA p))) := by
  have quiet : ∀ i, pairOf i = p → ¬acceptsChange s levels i := by
    intro i own
    rcases (pairOf_eq_iff i p).mp own with rfl | rfl
    · exact not_acceptsChange (.inr (.inl freshA))
    · exact not_acceptsChange (.inr (.inl freshB))
  rw [s.takeSamples_detector levels order quiet, samplesRead_detector, if_pos ⟨inUse, freshA⟩]

/-- A pair with nothing to prime and no accepted change stays as it is (R111). -/
theorem State.takeSamples_detector_steady {p : Fin 4}
    (started : s.settings.pairInUse p = false ∨ s.inputs.inputs[pairA p].primed = true)
    (quiet : ∀ i, i = pairA p ∨ i = pairB p → ¬acceptsChange s levels i) :
    (s.takeSamples levels order).detectors[p] = s.detectors[p] := by
  rw [s.takeSamples_detector levels order fun i own => quiet i ((pairOf_eq_iff i p).mp own), samplesRead_detector, if_neg]
  rintro ⟨inUse, fresh⟩
  rcases started with idle | primed
  · exact ne_false_of_eq_true inUse idle
  · exact ne_false_of_eq_true primed fresh

end

/-- Settles O49: the reading of the inputs, then the accepted changes one by one. -/
theorem sampleInstantSamplesEveryInput : Obligations.SampleInstantSamplesEveryInput := by
  unfold Obligations.SampleInstantSamplesEveryInput
  intro s levels order
  have runs : s.inputs.clock = true → exec (.sampleInstant levels order) s = .next (s.takeSamples levels order) :=
    fun clock => if_pos clock
  refine ⟨fun stopped => if_neg (by simp [stopped]), fun clock => ?_, fun clock => ?_⟩
  · refine ⟨(samplesRead s levels).inputs, (s.takeSamples levels order).outbox, (s.takeSamples levels order).notices,
      (s.takeSamples levels order).detectors, ?_, clock, samplesRead_input s levels,
      fun p => s.takeSamples_detector_started levels order, fun p started steady => ?_,
      s.takeSamples_outbox levels order, fun steady => ?_⟩
    · rw [runs clock, ← s.takeSamples_frame levels order]
    · exact s.takeSamples_detector_steady levels order started fun i own => not_acceptsChange (steady i own)
    · rw [s.takeSamples_of_quiet levels order fun i =>
        not_acceptsChange ((steady i).imp_right (Or.imp_right Or.inl))]
      exact ⟨rfl, rfl⟩
  · have taken : State.takeInputEvent = takesEvent := funext fun t => funext fun i => t.takeInputEvent_eq_takesEvent i
    rw [runs clock, State.takeSamples_eq, taken]
    rfl

end Sys2Proof.Machine

namespace Sys2Proof.Machine

open Sys2Proof.Safety

/-! ### The requests that act on the Outbox -/

theorem entryOperand_of_val {entry : Byte} {e : Entry} (names : e.val = entry.toNat) : entryOperand entry = some e := by
  have inside : entry.toNat < 32 := names ▸ e.isLt
  rw [entryOperand, dif_pos inside]
  exact congrArg some (Fin.ext names.symm)

theorem entryOperand_of_outside {entry : Byte} (outside : 31 < entry.toNat) : entryOperand entry = none :=
  dif_neg (by omega)

section
variable {s : State} {entry : Byte}

theorem State.requestZero_outside (member : s.member.state = .member) (outside : 31 < entry.toNat) :
    s.requestZero entry = (s, answerOf .badOperand) := by
  rw [State.requestZero, if_neg (not_not_intro member), entryOperand_of_outside outside]

/-- The conditions of R73 in their order. -/
theorem State.requestZero_inside (member : s.member.state = .member) {e : Entry} (names : e.val = entry.toNat) :
    s.requestZero entry =
      if s.settings.kind e = .off then (s, answerOf .badOperand)
      else if e ∈ s.outbox.zeroList ∨ e ∈ s.outbox.flightZeros then (s, answerOf .already)
      else if 4 ≤ s.outbox.zeroList.length + s.outbox.flightZeros.length then (s, answerOf .full)
      else ({ s with outbox := { s.outbox with zeroList := s.outbox.zeroList ++ [e] } }, answerOk []) := by
  rw [State.requestZero, if_neg (not_not_intro member), entryOperand_of_val names]
  rfl

variable {amount : Half}

theorem State.requestAdjust_setup (setup : s.member.state = .setup) :
    s.requestAdjust entry amount = (s, answerOf .refused) := if_pos setup

theorem State.requestAdjust_outside (used : s.member.state ≠ .setup) (outside : 31 < entry.toNat) :
    s.requestAdjust entry amount = (s, answerOf .badOperand) := by
  rw [State.requestAdjust, if_neg used, entryOperand_of_outside outside]

theorem State.requestAdjust_rejected (used : s.member.state ≠ .setup) {e : Entry} (names : e.val = entry.toNat)
    (bad : s.settings.kind e = .off ∨ amount.toInt < -2047 ∨ 2047 < amount.toInt) :
    s.requestAdjust entry amount = (s, answerOf .badOperand) := by
  rw [State.requestAdjust, if_neg used, entryOperand_of_val names]
  by_cases off : s.settings.kind e = .off
  · exact if_pos off
  · exact (if_neg off).trans (if_pos (bad.resolve_left off))

/-- An accepted ADJUST is one addition of the counting side (R62, R64). -/
theorem State.requestAdjust_accepted (used : s.member.state ≠ .setup) {e : Entry} (names : e.val = entry.toNat)
    (on : s.settings.kind e ≠ .off) (least : -2047 ≤ amount.toInt) (most : amount.toInt ≤ 2047) :
    s.requestAdjust entry amount = (addsTo s e amount.toInt, answerOk []) := by
  have inside : ¬(amount.toInt < -Config.amountLimit ∨ Config.amountLimit < amount.toInt) := by
    simp only [Config.amountLimit]; omega
  rw [State.requestAdjust, if_neg used, entryOperand_of_val names]
  dsimp only
  rw [if_neg on, if_neg inside, State.addPending_eq_addsTo]

end

/-- Settles O16: FREEZE and LEAVE set their flag, ZERO goes through the conditions of R73. -/
theorem memberRequestsSetOutbox : Obligations.MemberRequestsSetOutbox := by
  unfold Obligations.MemberRequestsSetOutbox
  refine ⟨fun s member => ⟨fun completes => ?_, fun completes => ?_⟩, fun s entry member completes => ?_⟩
  · refine (takeRequest_answered State.requestFreeze completes).trans ?_
    rw [State.requestFreeze, if_pos member]
    rfl
  · refine (takeRequest_answered State.requestLeave completes).trans ?_
    rw [State.requestLeave, if_pos member]
    rfl
  · have taken : exec (.zero entry) s =
        .next (answered s (s.requestZero entry).1 0x11 [entry] (s.requestZero entry).2) :=
      takeRequest_answered (fun t => t.requestZero entry) completes
    rw [taken]
    refine ⟨fun outside => ?_, fun e names => ?_⟩
    · rw [State.requestZero_outside member outside]
      rfl
    · rw [State.requestZero_inside member names]
      (repeat' split) <;> rfl

/-- Settles O17: ADJUST is refused in SETUP, else judged by its operands, else one addition. -/
theorem adjustAddsToPending : Obligations.AdjustAddsToPending := by
  unfold Obligations.AdjustAddsToPending
  have taken : ∀ (s : State) (entry : Byte) (amount : Half),
      s.tap.completes 0x12 (entry :: bytesOfHalf amount) = true → exec (.adjust entry amount) s =
        .next (answered s (s.requestAdjust entry amount).1 0x12 (entry :: bytesOfHalf amount)
          (s.requestAdjust entry amount).2) :=
    fun s entry amount completes => takeRequest_answered (fun t => t.requestAdjust entry amount) completes
  refine ⟨fun s entry amount setup completes => ?_, fun s entry amount used completes => ?_⟩ <;>
    rw [taken s entry amount completes]
  · rw [State.requestAdjust_setup setup]
    rfl
  · refine ⟨fun outside => ?_, fun e names bad => ?_, fun e names on least most => ?_⟩
    · rw [State.requestAdjust_outside used outside]
      rfl
    · rw [State.requestAdjust_rejected used names bad]
      rfl
    · have subject : BitVec.ofNat 8 e.val = entry := by rw [names, BitVec.ofNat_toNat, BitVec.setWidth_eq]
      rw [State.requestAdjust_accepted used names on least most, addsTo, subject]
      rfl

end Sys2Proof.Machine

namespace Sys2Proof.Machine

/-! ### The marks of the roster -/

/-- A slot is marked present exactly when its presence bit was taken as present. -/
theorem slotPresent_iff {presence : List Bool} {slot : Nat} :
    slotPresent presence slot = true ↔ presence[slot]? = some true := by
  rw [slotPresent, beq_iff_eq]

@[simp] theorem rosterAtClose_getElem (m : Record) (transmitted : Bool) (presence : List Bool) (slot : Fin 16) :
    (rosterAtClose m transmitted presence)[slot] = markOf m transmitted presence slot.val :=
  Vector.getElem_ofFn slot.isLt

/-! ### The notices of the roster -/

@[simp] theorem rosterNotices_fresh (m : Record) (cs : Option Half) (before after : Vector Mark 16) :
    rosterNotices m cs true before after = [] :=
  if_pos rfl

/-- The slot is the subject of its notice, so two notices of one kind are equal only for one slot. -/
theorem rosterNotice_inj {cs : Option Half} {kind kind' : NoticeKind} {slot slot' : Fin 16} :
    rosterNotice cs kind slot = rosterNotice cs kind' slot' ↔ kind = kind' ∧ slot = slot' := by
  refine ⟨fun same => ?_, fun ⟨kinds, slots⟩ => kinds ▸ slots ▸ rfl⟩
  simp only [rosterNotice, Notice.mk.injEq, Option.some.injEq, true_and, and_true] at same
  obtain ⟨kinds, subjects⟩ := same
  exact ⟨kinds, Fin.ext (by have := congrArg BitVec.toNat subjects; simp only [BitVec.toNat_ofNat] at this; omega)⟩

/-- What one slot adds to the notices of a roster that is not fresh (R101). -/
def slotNotices (m : Record) (cs : Option Half) (before after : Vector Mark 16) (k : Fin 16) : List Notice :=
  if k.val = m.stationNumber then []
  else if before[k] = .absent ∧ after[k] = .present then [rosterNotice cs .stationArrived k]
  else if before[k] = .present ∧ after[k] = .absent then [rosterNotice cs .stationDeparted k]
  else []

section
variable {m : Record} {cs : Option Half} {before after : Vector Mark 16}

theorem rosterNotices_eq_flatMap :
    rosterNotices m cs false before after = (List.finRange 16).flatMap (slotNotices m cs before after) := by
  rw [rosterNotices, if_neg Bool.false_ne_true, List.filterMap_eq_flatMap_toList]
  congr 1
  funext k
  rw [slotNotices]
  by_cases own : k.val = m.stationNumber
  · rw [if_pos own, if_pos own, Option.toList_none]
  · rw [if_neg own, if_neg own]
    cases before[k] <;> cases after[k] <;> rfl

/-- A slot adds no notice but its own: an arrival from ABSENT to PRESENT, a departure from PRESENT to ABSENT. -/
theorem rosterNotice_mem_slotNotices_iff {kind : NoticeKind} {slot k : Fin 16} :
    rosterNotice cs kind slot ∈ slotNotices m cs before after k ↔
      slot = k ∧ k.val ≠ m.stationNumber ∧
        (kind = .stationArrived ∧ before[k] = .absent ∧ after[k] = .present ∨
          kind = .stationDeparted ∧ before[k] = .present ∧ after[k] = .absent) := by
  rw [slotNotices]
  split_ifs with own arrived departed
  · simp [own]
  · simp [own, arrived, rosterNotice_inj, and_comm]
  · simp [own, departed, rosterNotice_inj, and_comm]
  · simp only [arrived, departed, List.not_mem_nil, and_false, or_self]

/-- The notices of a roster that is not fresh tell of the changes of the slots other than the own one (R101). -/
theorem rosterNotice_mem_rosterNotices_iff {kind : NoticeKind} {slot : Fin 16} (foreign : slot.val ≠ m.stationNumber) :
    rosterNotice cs kind slot ∈ rosterNotices m cs false before after ↔
      kind = .stationArrived ∧ before[slot] = .absent ∧ after[slot] = .present ∨
        kind = .stationDeparted ∧ before[slot] = .present ∧ after[slot] = .absent := by
  rw [rosterNotices_eq_flatMap, List.mem_flatMap]
  constructor
  · rintro ⟨k, -, posted⟩
    obtain ⟨rfl, -, change⟩ := rosterNotice_mem_slotNotices_iff.1 posted
    exact change
  · exact fun change => ⟨slot, List.mem_finRange slot, rosterNotice_mem_slotNotices_iff.2 ⟨rfl, foreign, change⟩⟩

/-- A slot other than the own one has its arrival noticed exactly when it came from ABSENT to PRESENT. -/
theorem stationArrived_mem_rosterNotices_iff {slot : Fin 16} (foreign : slot.val ≠ m.stationNumber) :
    rosterNotice cs .stationArrived slot ∈ rosterNotices m cs false before after ↔
      before[slot] = .absent ∧ after[slot] = .present := by
  simp [rosterNotice_mem_rosterNotices_iff foreign]

/-- A slot other than the own one has its departure noticed exactly when it went from PRESENT to ABSENT. -/
theorem stationDeparted_mem_rosterNotices_iff {slot : Fin 16} (foreign : slot.val ≠ m.stationNumber) :
    rosterNotice cs .stationDeparted slot ∈ rosterNotices m cs false before after ↔
      before[slot] = .present ∧ after[slot] = .absent := by
  simp [rosterNotice_mem_rosterNotices_iff foreign]

end

/-- Settles O42: the mark of each slot, then the notices of a fresh roster and of one that is not, slot by slot. -/
theorem rosterFollowsPresence : Obligations.RosterFollowsPresence := by
  unfold Obligations.RosterFollowsPresence
  intro m transmitted presence before cs slot
  refine ⟨?_, rosterNotices_fresh m cs before _,
    fun foreign => ⟨stationArrived_mem_rosterNotices_iff foreign, stationDeparted_mem_rosterNotices_iff foreign⟩,
    fun fresh now => ?_⟩
  · simp only [rosterAtClose_getElem, markOf, slotPresent_iff]
  · cases fresh
    case true => exact rosterNotices_fresh m cs before now
    case false => exact rosterNotices_eq_flatMap

end Sys2Proof.Machine

namespace Sys2Proof.Machine

open Sys2Proof.Safety

/-! ### The settle filter -/

/-- A sample at the filtered level starts the run again (R105). -/
theorem filterInput_same {input : Input} (primed : input.primed = true) (settle : Nat) :
    filterInput settle input input.level = ({ input with run := 0 }, false) := by
  simp [filterInput, primed]

/-- The first sample primes, without an event (R104). -/
theorem filterInput_fresh {input : Input} (fresh : input.primed = false) (settle : Nat) (sample : Level) :
    filterInput settle input sample = ({ primed := true, level := sample, run := 0 }, false) := by
  simp [filterInput, fresh]

section
variable {settle : Nat} {input : Input} {sample : Level} (primed : input.primed = true) (differs : sample ≠ input.level)
include primed differs

theorem filterInput_short (short : input.run + 1 < settle) :
    filterInput settle input sample = ({ input with run := input.run + 1 }, false) := by
  simp [filterInput, primed, differs, short]

theorem filterInput_full (full : settle ≤ input.run + 1) :
    filterInput settle input sample = ({ input with level := sample, run := 0 }, true) := by
  simp [filterInput, primed, differs, full]

end

theorem flip_ne_self (l : Level) : l.flip ≠ l := by cases l <;> decide

/-- Fewer than S opposite samples only count the run (R105). -/
theorem filterInput_foldl_opposite {settle : Nat} {input : Input} (primed : input.primed = true) (start : input.run = 0)
    {n : Nat} (short : n < settle) :
    (List.replicate n input.level.flip).foldl (fun i l => (filterInput settle i l).1) input =
      { input with run := n } := by
  induction n with
  | zero => exact congrArg (fun run => ({ input with run := run } : Input)) start
  | succ n ih =>
    rw [List.replicate_succ', List.foldl_concat, ih (Nat.lt_of_succ_lt short),
      filterInput_short (input := { input with run := n }) primed (flip_ne_self input.level) short]

/-- Settles O48: one sample by the four branches of the filter, then a run of opposite samples by induction. -/
theorem settleFilterAcceptsAtS : Obligations.SettleFilterAcceptsAtS := by
  unfold Obligations.SettleFilterAcceptsAtS
  intro settle input sample _
  refine ⟨fun fresh => filterInput_fresh fresh settle sample, fun primed => filterInput_same primed settle,
    fun primed differs => ⟨filterInput_short primed differs, fun full => filterInput_full primed differs full.ge⟩,
    fun primed start n below => ?_⟩
  intro after
  have run : after = { input with run := n } := filterInput_foldl_opposite primed start below
  have opposite : input.level.flip ≠ after.level := by rw [run]; exact flip_ne_self input.level
  have primed : after.primed = true := by rw [run]; exact primed
  rcases Nat.lt_or_eq_of_le (Nat.succ_le_of_lt below) with short | reached
  · have next := filterInput_short primed opposite (settle := settle) (by rw [run]; exact short)
    exact ⟨run, by rw [next, decide_eq_false short.ne], fun reached => absurd reached short.ne⟩
  · have next := filterInput_full primed opposite (settle := settle) (by rw [run]; exact reached.ge)
    exact ⟨run, by rw [next, decide_eq_true reached], fun _ => by rw [next, run]⟩

end Sys2Proof.Machine

namespace Sys2Proof.Machine

open Sys2Proof.Safety

/-! ### The marks of a passage detector -/

/-- A detector agrees with its two inputs: its marks are A blocked and B blocked as given, its passage state is STUCK or
the one that Table 7-3 gives them, and its timer runs in no other state than the six between. -/
structure Detector.Agrees (d : Detector) (blockedA blockedB : Bool) : Prop where
  markA : d.markA = blockedA
  markB : d.markB = blockedB
  marks : d.state = .stuck ∨ impliedMarks d.state = some (blockedA, blockedB)
  timer : d.timer.isSome = true → d.state ≠ .idle ∧ d.state ≠ .stuck

/-- The change of a pair's A input, or of its B input, as the marks of the two stand before it. -/
def changeOf (isA blockedA blockedB : Bool) : PairChange := pairChange isA (if isA then !blockedA else !blockedB)

theorem Detector.mark_changeOf {d : Detector} {blockedA blockedB : Bool} (markA : d.markA = blockedA)
    (markB : d.markB = blockedB) (isA : Bool) :
    d.mark (changeOf isA blockedA blockedB) = { d with markA := blockedA ^^ isA, markB := blockedB ^^ !isA } := by
  subst markA markB
  obtain ⟨state, markA, markB, timer⟩ := d
  cases isA <;> cases markA <;> cases markB <;> rfl

/-- A detector starts in agreement with the two primed levels (R115). -/
theorem Detector.start_agrees (blockedA blockedB : Bool) :
    (Detector.start blockedA blockedB).Agrees blockedA blockedB := by
  refine ⟨rfl, rfl, ?_, fun runs => nomatch runs⟩
  cases blockedA <;> cases blockedB
  case false.false => exact .inr rfl
  all_goals exact .inl rfl

/-- Table 7-4 has a row for each change of one input that the marks allow, and the row leads to the state that the
changed marks imply (Table 7-3). -/
theorem passageTable_of_marks {state : PassageState} {blockedA blockedB : Bool}
    (marks : impliedMarks state = some (blockedA, blockedB)) (isA : Bool) :
    ∃ next passage, passageTable state (changeOf isA blockedA blockedB) = some (next, passage) ∧
      impliedMarks next = some (blockedA ^^ isA, blockedB ^^ !isA) := by
  cases state <;> simp only [impliedMarks, reduceCtorEq, Option.some.injEq, Prod.mk.injEq] at marks <;>
    obtain ⟨rfl, rfl⟩ := marks <;> cases isA <;> exact ⟨_, _, rfl, rfl⟩

/-- The passage timer is started in no other state than the six between IDLE and STUCK (R119). -/
theorem timerIn_isSome {limit : Option Nat} {state : PassageState} (runs : (timerIn limit state).isSome = true) :
    state ≠ .idle ∧ state ≠ .stuck := by
  cases state
  case idle | stuck => exact nomatch runs
  all_goals exact ⟨by decide, by decide⟩

/-- A detector that takes the change of one input agrees with the inputs after it (R116, R119, R121). -/
theorem Detector.Agrees.take {d : Detector} {blockedA blockedB : Bool} (h : d.Agrees blockedA blockedB)
    (limit : Option Nat) (isA : Bool) :
    (d.take limit (changeOf isA blockedA blockedB)).1.Agrees (blockedA ^^ isA) (blockedB ^^ !isA) := by
  obtain ⟨markA, markB, marks, timer⟩ := h
  have taken := d.take_cases limit (changeOf isA blockedA blockedB)
  rw [Detector.mark_changeOf markA markB] at taken
  rcases taken with ⟨stuck, -, eq⟩ | ⟨stuck, clear, eq⟩ | ⟨next, passage, free, row, eq⟩ | ⟨free, noRow, -⟩
  · rw [eq]
    exact ⟨rfl, rfl, .inl stuck, timer⟩
  · obtain ⟨clearA, clearB⟩ := Bool.or_eq_false_iff.mp clear
    rw [eq]
    refine ⟨rfl, rfl, .inr ?_, fun runs => absurd stuck (timer runs).2⟩
    dsimp only at clearA clearB
    rw [clearA, clearB]
    rfl
  · obtain ⟨next', passage', row', implied⟩ := passageTable_of_marks (marks.resolve_left free) isA
    obtain ⟨rfl, -⟩ := Prod.mk.inj (Option.some.inj (row.symm.trans row'))
    rw [eq]
    exact ⟨rfl, rfl, .inr implied, timerIn_isSome⟩
  · obtain ⟨next, passage, row, -⟩ := passageTable_of_marks (marks.resolve_left free) isA
    exact nomatch noRow.symm.trans row

/-! ### The events of a sample instant at one pair -/

@[simp] theorem pairOf_pairA (p : Fin 4) : pairOf (pairA p) = p := (pairOf_eq_iff _ p).mpr (.inl rfl)
@[simp] theorem pairOf_pairB (p : Fin 4) : pairOf (pairB p) = p := (pairOf_eq_iff _ p).mpr (.inr rfl)

theorem pairB_ne_pairA (p : Fin 4) : pairB p ≠ pairA p := by
  simp only [pairA, pairB, ne_eq, Fin.mk.injEq]
  omega

theorem pairB_sub_one (p : Fin 4) : pairB p - 1 = pairA p := by
  revert p
  decide

theorem Record.pairInUse_iff (m : Record) (p : Fin 4) :
    m.pairInUse p = true ↔ m.inputMode (pairA p) = .pairA ∧ m.inputMode (pairB p) = .pairB := by
  simp [Record.pairInUse]

theorem Record.used_of_pairInUse {m : Record} {p : Fin 4} (inUse : m.pairInUse p = true) {i : Fin 8}
    (own : i = pairA p ∨ i = pairB p) : m.inputMode i ≠ .unused := by
  obtain ⟨modeA, modeB⟩ := (m.pairInUse_iff p).mp inUse
  rcases own with rfl | rfl
  · rw [modeA]; decide
  · rw [modeB]; decide

/-- Whether the filtered level of an input is the blocked level of its pair (R111). -/
def State.blockedAt (s : State) (i : Fin 8) : Bool :=
  decide (s.inputs.inputs[i].level = s.settings.blockedLevel (pairA (pairOf i)))

section
variable (s : State) (i : Fin 8)

@[simp] theorem State.takeInputEvent_inputs : (s.takeInputEvent i).inputs = s.inputs := by
  rw [s.takeInputEvent_frame i]

@[simp] theorem State.takeInputEvent_setup : (s.takeInputEvent i).setup = s.setup := by
  rw [s.takeInputEvent_frame i]

@[simp] theorem State.takeInputEvent_settings : (s.takeInputEvent i).settings = s.settings := by
  rw [State.settings, State.settings, s.takeInputEvent_setup i]

@[simp] theorem State.takeInputEvent_blockedAt (j : Fin 8) : (s.takeInputEvent i).blockedAt j = s.blockedAt j := by
  rw [State.blockedAt, State.blockedAt, s.takeInputEvent_inputs, s.takeInputEvent_settings]

@[simp] theorem State.addMap_detectors (map : CountMap) : (s.addMap map).detectors = s.detectors := by
  rw [s.addMap_frame map]

/-- An input of a pair hands its change to the detector (R111). -/
theorem State.takeInputEvent_detector_own (pair : s.settings.inputMode i = .pairA ∨ s.settings.inputMode i = .pairB) :
    (s.takeInputEvent i).detectors[pairOf i] = (s.detectors[pairOf i].take s.settings.passageLimit
      (pairChange (decide (s.settings.inputMode i = .pairA)) (s.blockedAt i))).1 := by
  have event : s.takeInputEvent i = s.takePairChange i s.inputs.inputs[i].level := by
    rcases pair with mode | mode <;> simp only [State.takeInputEvent, mode]
  rw [event, State.takePairChange, State.blockedAt]
  split <;> simp

/-- No other detector moves (R111). -/
theorem State.takeInputEvent_detector_other {p : Fin 4} (other : pairOf i ≠ p) :
    (s.takeInputEvent i).detectors[p] = s.detectors[p] := by
  refine State.takeInputEvent_induction (P := fun t => t.detectors[p] = s.detectors[p]) (fun t d same => ?_)
    (fun _ _ _ same => same) rfl
  have ne : (pairOf i).val ≠ p.val := fun eq => other (Fin.ext eq)
  simpa [ne] using same

/-- An input that belongs to no pair moves no detector (R109). -/
theorem State.takeInputEvent_detectors_of_single (notA : s.settings.inputMode i ≠ .pairA)
    (notB : s.settings.inputMode i ≠ .pairB) : (s.takeInputEvent i).detectors = s.detectors := by
  cases mode : s.settings.inputMode i with
  | pairA => exact absurd mode notA
  | pairB => exact absurd mode notB
  | unused => simp only [State.takeInputEvent, mode]
  | single =>
    simp only [State.takeInputEvent, mode]
    split
    · exact s.addMap_detectors _
    · rfl

end

/-- Before the events still to come, the marks of a pair in use stand as its inputs stood before them. -/
def State.AgreesBefore (s : State) (events : List (Fin 8)) (p : Fin 4) : Prop :=
  s.detectors[p].Agrees (s.blockedAt (pairA p) ^^ decide (pairA p ∈ events))
    (s.blockedAt (pairB p) ^^ decide (pairB p ∈ events))

theorem State.agreesBefore_takeInputEvent {s : State} {p : Fin 4} (inUse : s.settings.pairInUse p = true) {i : Fin 8}
    {rest : List (Fin 8)} (once : i ∉ rest) (h : s.AgreesBefore (i :: rest) p) :
    (s.takeInputEvent i).AgreesBefore rest p := by
  obtain ⟨modeA, modeB⟩ := (s.settings.pairInUse_iff p).mp inUse
  unfold State.AgreesBefore at h ⊢
  rw [State.takeInputEvent_blockedAt, State.takeInputEvent_blockedAt]
  by_cases own : pairOf i = p
  · rcases (pairOf_eq_iff i p).mp own with rfl | rfl
    · have moved := s.takeInputEvent_detector_own (pairA p) (.inl modeA)
      simp only [pairOf_pairA, modeA, decide_true] at moved
      rw [moved]
      simpa [changeOf, once, pairB_ne_pairA] using h.take s.settings.passageLimit true
    · have moved := s.takeInputEvent_detector_own (pairB p) (.inr modeB)
      simp only [pairOf_pairB, modeB, reduceCtorEq, decide_false] at moved
      rw [moved]
      simpa [changeOf, once, (pairB_ne_pairA p).symm] using h.take s.settings.passageLimit false
  · have otherA : pairA p ≠ i := fun eq => own (eq ▸ pairOf_pairA p)
    have otherB : pairB p ≠ i := fun eq => own (eq ▸ pairOf_pairB p)
    rw [s.takeInputEvent_detector_other i own]
    simpa [otherA, otherB] using h

/-- Once every event has been taken, a pair in use agrees with its inputs (R111, R116). -/
theorem State.agrees_takeEvents {p : Fin 4} {events : List (Fin 8)} (distinct : events.Nodup) {s : State}
    (inUse : s.settings.pairInUse p = true) (h : s.AgreesBefore events p) :
    (events.foldl State.takeInputEvent s).detectors[p].Agrees (s.blockedAt (pairA p)) (s.blockedAt (pairB p)) := by
  induction events generalizing s with
  | nil => simpa [State.AgreesBefore] using h
  | cons i rest ih =>
    obtain ⟨once, distinct⟩ := List.nodup_cons.mp distinct
    have later := ih distinct (s := s.takeInputEvent i) (by rwa [State.takeInputEvent_settings])
      (State.agreesBefore_takeInputEvent inUse once h)
    simpa using later

/-! ### A sample instant at one pair -/

theorem filterInput_primed (settle : Nat) (input : Input) (sample : Level) :
    (filterInput settle input sample).1.primed = true := by
  rcases filterInput_cases settle input sample with
    ⟨-, eq⟩ | ⟨primed, -, eq⟩ | ⟨primed, -, -, eq⟩ | ⟨primed, -, -, eq⟩ <;> rw [eq]
  all_goals exact primed

/-- A level has two values. -/
theorem decide_eq_not_decide_of_ne {now before : Level} (differs : now ≠ before) (blocked : Level) :
    decide (now = blocked) = !decide (before = blocked) := by
  cases now <;> cases before <;> cases blocked <;> simp_all

section
variable {s : State} (levels : Byte) {i : Fin 8} (used : s.settings.inputMode i ≠ .unused)
include used

theorem samplesRead_used : (samplesRead s levels).inputs.inputs[i] =
    (filterInput (s.settings.settleCount i) s.inputs.inputs[i] (sampledLevel levels i)).1 := by
  rw [samplesRead_input, if_neg used]

theorem samplesRead_primed : (samplesRead s levels).inputs.inputs[i].primed = true := by
  rw [samplesRead_used levels used]
  exact filterInput_primed _ _ _

/-- An accepted change is one between blocked and clear: the filtered level has two values (R105). -/
theorem samplesRead_blockedAt (primed : s.inputs.inputs[i].primed = true) :
    ((samplesRead s levels).blockedAt i ^^ decide (acceptsChange s levels i)) = s.blockedAt i := by
  have settings : (samplesRead s levels).settings = s.settings := rfl
  rw [State.blockedAt, State.blockedAt, samplesRead_used levels used, settings]
  rcases filterInput_cases (s.settings.settleCount i) s.inputs.inputs[i] (sampledLevel levels i) with
    ⟨fresh, -⟩ | ⟨-, same, eq⟩ | ⟨-, differs, short, eq⟩ | ⟨-, differs, full, eq⟩
  · exact absurd fresh (ne_false_of_eq_true primed)
  · rw [eq, decide_eq_false (not_acceptsChange (.inr (.inr (.inl same.symm))))]
    simp
  · rw [eq, decide_eq_false (not_acceptsChange (.inr (.inr (.inr short))))]
    simp
  · rw [eq, decide_eq_true (show acceptsChange s levels i from ⟨used, primed, differs.symm, full⟩)]
    rw [decide_eq_not_decide_of_ne differs]
    simp

end

/-- The law of one pair: in use and primed, its detector agrees with its inputs; else it stands at its reset values,
and the two inputs of a pair are primed together (R108, R114, R115). -/
def State.PairWf (s : State) (p : Fin 4) : Prop :=
  (s.settings.pairInUse p = true ∧ s.inputs.inputs[pairA p].primed = true ∧ s.inputs.inputs[pairB p].primed = true ∧
    s.detectors[p].Agrees (s.blockedAt (pairA p)) (s.blockedAt (pairB p))) ∨
  (s.detectors[p] = Detector.reset ∧ (s.settings.pairInUse p = true →
    s.inputs.inputs[pairA p].primed = false ∧ s.inputs.inputs[pairB p].primed = false))

/-- The inputs read and the pairs started, a pair in use has its accepted changes still to take (R107, R115). -/
theorem State.PairWf.agreesBefore {s : State} {p : Fin 4} (h : s.PairWf p) (inUse : s.settings.pairInUse p = true)
    (levels : Byte) (order : List (Fin 8)) :
    (samplesRead s levels).AgreesBefore (s.acceptedChanges levels order) p := by
  have usedA := Record.used_of_pairInUse inUse (.inl rfl)
  have usedB := Record.used_of_pairInUse inUse (.inr rfl)
  simp only [State.AgreesBefore, State.mem_acceptedChanges, samplesRead_detector]
  rcases h with ⟨-, primedA, primedB, agrees⟩ | ⟨-, unprimed⟩
  · rw [samplesRead_blockedAt levels usedA primedA, samplesRead_blockedAt levels usedB primedB,
      if_neg fun fresh => ne_false_of_eq_true primedA fresh.2]
    exact agrees
  · obtain ⟨freshA, freshB⟩ := unprimed inUse
    have blocked : ∀ i, s.settings.inputMode i ≠ .unused → s.inputs.inputs[i].primed = false → pairOf i = p →
        ((samplesRead s levels).blockedAt i ^^ decide (acceptsChange s levels i)) =
          decide (sampledLevel levels i = s.settings.blockedLevel (pairA p)) := by
      rintro i used fresh rfl
      rw [decide_eq_false (not_acceptsChange (.inr (.inl fresh))), Bool.xor_false, State.blockedAt,
        samplesRead_used levels used, filterInput_fresh fresh]
      rfl
    rw [blocked _ usedA freshA (pairOf_pairA p), blocked _ usedB freshB (pairOf_pairB p), if_pos ⟨inUse, freshA⟩]
    exact Detector.start_agrees _ _

/-! ### What an accepted record says of the inputs -/

/-- The mode byte of every input of an accepted record passes its check (R167). -/
theorem Record.modeFails_of_accepted {m : Record} (accepted : firstFailure m = none) (i : Fin 8) :
    modeFails m i = false :=
  (firstFailure_eq_none_iff m).mp accepted ⟨inputOffset i, modeFails m i⟩ (by
    simp only [setupChecks, List.mem_append, List.mem_flatMap]
    exact .inl (.inr ⟨i, List.mem_finRange i, by simp [inputChecks]⟩))

theorem Record.inputMode_eq_pairA_iff (m : Record) (i : Fin 8) : m.inputMode i = .pairA ↔ m.modeCode i = 2 := by
  unfold Record.inputMode Record.modeCode
  split <;> simp_all

theorem Record.inputMode_eq_pairB_iff (m : Record) (i : Fin 8) : m.inputMode i = .pairB ↔ m.modeCode i = 3 := by
  unfold Record.inputMode Record.modeCode
  split <;> simp_all

/-- In an accepted record an input with a pair's mode belongs to a pair in use (R108, R167). -/
theorem Record.pairInUse_of_accepted {m : Record} (accepted : firstFailure m = none) {i : Fin 8}
    (pair : m.inputMode i = .pairA ∨ m.inputMode i = .pairB) : m.pairInUse (pairOf i) = true := by
  obtain ⟨p, own⟩ : ∃ p, pairOf i = p := ⟨_, rfl⟩
  have even := Record.modeFails_of_accepted accepted (pairA p)
  have odd := Record.modeFails_of_accepted accepted (pairB p)
  have evenVal : (pairA p).val % 2 = 0 := by simp [pairA]
  have oddVal : (pairB p).val % 2 = 1 := by simp [pairB, Nat.add_mod]
  simp only [modeFails, evenVal, oddVal, pairB_sub_one, if_true, one_ne_zero, if_false, Bool.or_eq_false_iff,
    decide_eq_false_iff_not] at even odd
  rw [own, Record.pairInUse_iff, Record.inputMode_eq_pairA_iff, Record.inputMode_eq_pairB_iff]
  rw [Record.inputMode_eq_pairA_iff, Record.inputMode_eq_pairB_iff] at pair
  rcases (pairOf_eq_iff i p).mp own with rfl | rfl <;> omega

/-- Without a committed record every input is unused (R1, R108). -/
theorem Record.inputMode_nil (i : Fin 8) : Record.inputMode [] i = .unused := rfl

theorem Record.pairInUse_nil (p : Fin 4) : Record.pairInUse [] p = false := rfl

theorem Record.settleCount_le (m : Record) (i : Fin 8) : m.settleCount i ≤ 16 := by
  unfold Record.settleCount
  split <;> decide

theorem State.pairInUse_of_pair {s : State} (wf : SetupWf s) {i : Fin 8}
    (pair : s.settings.inputMode i = .pairA ∨ s.settings.inputMode i = .pairB) :
    s.settings.pairInUse (pairOf i) = true := by
  obtain ⟨-, -, holds, -⟩ := wf
  cases committed : s.setup.committed with
  | true =>
    rw [State.settings_of_committed committed] at pair ⊢
    exact Record.pairInUse_of_accepted (holds committed).1 pair
  | false =>
    rw [State.settings_of_uncommitted committed, Record.inputMode_nil] at pair
    exact absurd pair (by decide)

/-! ### The laws of counting, input by input and pair by pair -/

/-- The law of one input: its run count below 16, and at its reset values when unused (R102, R105, R108). -/
def State.InputWf (s : State) (i : Fin 8) : Prop :=
  s.inputs.inputs[i].run < 16 ∧
  (s.settings.inputMode i = .unused → s.inputs.inputs[i] = { primed := false, level := .low, run := 0 })

theorem State.PairWf.of_unused {s : State} {p : Fin 4} (reset : s.detectors[p] = Detector.reset)
    (unused : s.settings.pairInUse p = false) : s.PairWf p :=
  .inr ⟨reset, fun inUse => absurd inUse (ne_true_of_eq_false unused)⟩

theorem State.blockedAt_pairA (s : State) (p : Fin 4) : s.blockedAt (pairA p) =
    decide (s.inputs.inputs[pairA p].level = s.settings.blockedLevel (pairA p)) := by
  rw [State.blockedAt, pairOf_pairA]

theorem State.blockedAt_pairB (s : State) (p : Fin 4) : s.blockedAt (pairB p) =
    decide (s.inputs.inputs[pairB p].level = s.settings.blockedLevel (pairA p)) := by
  rw [State.blockedAt, pairOf_pairB]

/-- The laws of counting are those of the record, of each input and of each pair. -/
theorem countingWf_iff (s : State) : CountingWf s ↔ SetupWf s ∧ (∀ i, s.InputWf i) ∧ ∀ p, s.PairWf p := by
  refine and_congr_right fun _ => and_congr_right fun _ => forall_congr' fun p => ?_
  constructor
  · rintro ⟨unused, marks, timer, agree, together, unprimed⟩
    by_cases inUse : s.settings.pairInUse p = true
    · by_cases primed : s.inputs.inputs[pairA p].primed = true
      · obtain ⟨markA, markB⟩ := agree primed inUse
        refine .inl ⟨inUse, primed, together inUse ▸ primed, ?_⟩
        rw [s.blockedAt_pairA, s.blockedAt_pairB, ← markA, ← markB]
        exact ⟨rfl, rfl, marks, timer⟩
      · have fresh := eq_false_of_ne_true primed
        exact .inr ⟨unprimed fresh, fun _ => ⟨fresh, together inUse ▸ fresh⟩⟩
    · exact .of_unused (unused (eq_false_of_ne_true inUse)) (eq_false_of_ne_true inUse)
  · rintro (⟨inUse, primedA, primedB, agrees⟩ | ⟨reset, unprimed⟩)
    · obtain ⟨markA, markB, marks, timer⟩ := agrees
      rw [s.blockedAt_pairA] at markA marks
      rw [s.blockedAt_pairB] at markB marks
      refine ⟨fun unused => absurd inUse (ne_true_of_eq_false unused), ?_, timer, fun _ _ => ⟨markA, markB⟩,
        fun _ => primedA.trans primedB.symm, fun fresh => absurd primedA (ne_true_of_eq_false fresh)⟩
      rwa [markA, markB]
    · refine ⟨fun _ => reset, .inr ?_, fun runs => ?_, fun primed inUse => ?_, fun inUse => ?_, fun _ => reset⟩
      · rw [reset]; rfl
      · rw [reset] at runs; exact nomatch runs
      · exact absurd primed (ne_true_of_eq_false (unprimed inUse).1)
      · rw [(unprimed inUse).1, (unprimed inUse).2]

/-! ### What a sample instant and a passage timer keep -/

section
variable {s : State}

theorem State.InputWf.sampled {i : Fin 8} (h : s.InputWf i) (levels : Byte) : (samplesRead s levels).InputWf i := by
  obtain ⟨below, reset⟩ := h
  have settings : (samplesRead s levels).settings = s.settings := rfl
  rw [State.InputWf, samplesRead_input, settings]
  split
  · exact ⟨below, reset⟩
  · next used =>
    refine ⟨?_, fun unused => absurd unused used⟩
    have limit := s.settings.settleCount_le i
    have run := filterInput_run (s.settings.settleCount i) s.inputs.inputs[i] (sampledLevel levels i)
    omega

/-- An input that is in no pair in use moves no detector of the pair (R109, R111). -/
theorem State.takeInputEvent_detector_unused {p : Fin 4} {i : Fin 8}
    (sound : s.settings.inputMode i = .pairA ∨ s.settings.inputMode i = .pairB → s.settings.pairInUse (pairOf i) = true)
    (unused : s.settings.pairInUse p = false) : (s.takeInputEvent i).detectors[p] = s.detectors[p] := by
  by_cases own : pairOf i = p
  · have single : ¬(s.settings.inputMode i = .pairA ∨ s.settings.inputMode i = .pairB) := fun pair =>
      ne_true_of_eq_false unused (own ▸ sound pair)
    rw [s.takeInputEvent_detectors_of_single i (fun pair => single (.inl pair)) fun pair => single (.inr pair)]
  · exact s.takeInputEvent_detector_other i own

variable (levels : Byte) (order : List (Fin 8))

@[simp] theorem State.takeSamples_inputs : (s.takeSamples levels order).inputs = (samplesRead s levels).inputs := by
  rw [s.takeSamples_frame]

@[simp] theorem State.takeSamples_settings : (s.takeSamples levels order).settings = s.settings := by
  rw [State.settings, State.settings, s.takeSamples_frame]

/-- The detector of a pair that is not in use stays as it is (R114). -/
theorem State.takeSamples_detector_unused (wf : SetupWf s) {p : Fin 4} (unused : s.settings.pairInUse p = false) :
    (s.takeSamples levels order).detectors[p] = s.detectors[p] := by
  have read : (samplesRead s levels).detectors[p] = s.detectors[p] := by
    rw [samplesRead_detector, if_neg fun started => ne_true_of_eq_false unused started.1]
  refine (State.takeSamples_induction (P := fun t => t.settings = s.settings ∧ t.detectors[p] = s.detectors[p])
    levels order s (fun t i ⟨settings, same⟩ => ⟨?_, ?_⟩) (s.sampled_eq_samplesRead levels ▸ ⟨rfl, read⟩)).2
  · rw [t.takeInputEvent_settings, settings]
  · rw [State.takeInputEvent_detector_unused, same]
    · rw [settings]; exact State.pairInUse_of_pair wf
    · rw [settings]; exact unused

theorem State.PairWf.takeSamples (wf : SetupWf s) {p : Fin 4} (h : s.PairWf p) :
    (s.takeSamples levels order).PairWf p := by
  by_cases inUse : s.settings.pairInUse p = true
  · have distinct : (s.acceptedChanges levels order).Nodup := (eventOrder_nodup order).filter _
    have taken := State.agrees_takeEvents distinct (s := samplesRead s levels) inUse (h.agreesBefore inUse levels order)
    refine .inl ?_
    rw [State.blockedAt, State.blockedAt, s.takeSamples_inputs, s.takeSamples_settings]
    refine ⟨inUse, samplesRead_primed levels (Record.used_of_pairInUse inUse (.inl rfl)),
      samplesRead_primed levels (Record.used_of_pairInUse inUse (.inr rfl)), ?_⟩
    rw [s.takeSamples_eq]
    exact taken
  · have unused := eq_false_of_ne_true inUse
    have reset : s.detectors[p] = Detector.reset := by
      rcases h with ⟨used, -⟩ | ⟨reset, -⟩
      · exact absurd used inUse
      · exact reset
    refine .of_unused ?_ (by rw [s.takeSamples_settings, unused])
    rw [s.takeSamples_detector_unused levels order wf unused, reset]

end

end Sys2Proof.Machine

namespace Sys2Proof.Machine

open Sys2Proof.Safety

/-! ### What leaves the record and the counting side as they are -/

/-- From `s` to `t` the record, the inputs and the detectors stay, no reset begins, and the modes of the station agree
as the laws ask: SETUP without a record, nothing sent without a valid replica, a reset with the tap idle in SETUP. -/
structure Steady (s t : State) : Prop where
  record : t.setup.record = s.setup.record
  committed : t.setup.committed = s.setup.committed
  digest : t.setup.digest = s.setup.digest
  inputs : t.inputs = s.inputs
  detectors : t.detectors = s.detectors
  mode : t.setup.committed = true ↔ t.member.state ≠ .setup
  sends : t.transmits = true → t.valid = true
  reset : t.resetting.isSome = true → s.resetting.isSome = true ∧ t.tap.state = .idle ∧ t.member.state = .setup

/-- What `Steady` speaks of. -/
def State.footing (s : State) :
    SetupStore × Conditioner × Vector Detector 4 × StationState × Bool × Option ResetKind × TapState :=
  (s.setup, s.inputs, s.detectors, s.member.state, s.transmits, s.resetting, s.tap.state)

theorem Steady.refl {s : State} (wf : SetupWf s) : Steady s s := by
  obtain ⟨-, mode, -, -, sends, reset⟩ := wf
  exact ⟨rfl, rfl, rfl, rfl, rfl, mode, sends, fun resets => ⟨resets, reset resets⟩⟩

theorem countingWf_of_steady {s t : State} (h : CountingWf s) (k : Steady s t) : CountingWf t := by
  obtain ⟨⟨wf, mode, holds, clock, sends, reset⟩, counting⟩ := h
  have settings : t.settings = s.settings := by rw [State.settings, State.settings, k.committed, k.record]
  refine ⟨⟨?_, k.mode, ?_, ?_, k.sends, fun resets => (k.reset resets).2⟩, ?_⟩
  · rw [k.record]; exact wf
  · rw [k.committed, k.record, k.digest]; exact holds
  · rw [k.inputs, k.committed]; exact clock
  · rw [k.inputs, k.detectors, settings]; exact counting

section
variable {s t : State} (k : Steady s t)
include k

/-- A change that leaves all of this as it is. -/
theorem Steady.same {u : State} (same : u.footing = t.footing) : Steady s u := by
  obtain ⟨record, committed, digest, inputs', detectors', mode, sends, reset⟩ := k
  simp only [State.footing, Prod.mk.injEq] at same
  obtain ⟨setup, inputs, detectors, state, sending, resetting, tap⟩ := same
  constructor <;> simp only [setup, inputs, detectors, state, sending, resetting, tap, State.valid] <;> assumption

/-- A change of station state once a record is committed. -/
theorem Steady.enter {u : State} (left : t.member.state ≠ .setup) (entered : u.member.state ≠ .setup)
    (sends : u.transmits = true → u.valid = true) (setup : u.setup = t.setup)
    (inputs : u.inputs = t.inputs) (detectors : u.detectors = t.detectors) (resetting : u.resetting = t.resetting) :
    Steady s u where
  record := by rw [setup, k.record]
  committed := by rw [setup, k.committed]
  digest := by rw [setup, k.digest]
  inputs := by rw [inputs, k.inputs]
  detectors := by rw [detectors, k.detectors]
  mode := by rw [setup]; exact iff_of_true (k.mode.mpr left) entered
  sends := sends
  reset := by rw [resetting]; exact fun resets => absurd (k.reset resets).2.2 left

/-- In a transaction no reset is in progress (R148). -/
theorem Steady.not_resetting (busy : t.tap.state ≠ .idle) : t.resetting.isSome ≠ true := fun resets =>
  busy (k.reset resets).2.1

/-- A change of the tap outside a reset. -/
theorem Steady.withTap (quiet : t.resetting.isSome ≠ true) (tap : Tap) : Steady s { t with tap := tap } :=
  { k with reset := fun resets => absurd resets quiet }

/-! ### The tally link -/

theorem steady_compose : Steady s t.compose := by
  unfold State.compose
  split
  · next valid =>
    refine ⟨k.record, k.committed, k.digest, k.inputs, k.detectors, k.mode, fun _ => ?_, k.reset⟩
    simpa only [State.valid] using valid
  · exact k

/-- A collision in the own slot of a station that transmits: a strike, or the change to FAULT (R53, R54). -/
theorem steady_takeCollision (sends : t.transmits = true) (position : Nat) : Steady s (t.takeCollision position) := by
  rcases t.takeCollision_cases position with ⟨-, eq⟩ | ⟨-, eq⟩ <;> rw [eq]
  · exact k.same rfl
  · exact k.enter (State.ne_setup_of_valid (k.sends sends)) nofun nofun rfl rfl rfl rfl

end

theorem State.recordBit_transmits (s : State) (ldata : Level) : (s.recordBit ldata).transmits = s.transmits := by
  unfold State.recordBit State.transmits
  dsimp only
  split <;> rfl

theorem State.transmits_of_firstCollision {s : State} {ldata : Level} (collides : s.firstCollision ldata = true) :
    s.transmits = true := by
  simp only [State.firstCollision, State.inOwnSlot, Bool.and_eq_true] at collides
  obtain ⟨⟨⟨sends, -⟩, -⟩, -⟩ := collides
  exact sends

section
variable {s t : State} (k : Steady s t)
include k

theorem steady_recordBit (ldata : Level) : Steady s (t.recordBit ldata) :=
  k.same (by simp [State.footing, t.recordBit_transmits])

theorem steady_sampleSlotBit (ldata : Level) : Steady s (t.sampleSlotBit ldata) := by
  have recorded := steady_recordBit k ldata
  have compared : Steady s (if t.firstCollision ldata then
      (t.recordBit ldata).takeCollision (t.recordBit ldata).link.bit else t.recordBit ldata) := by
    split
    · next collides =>
      refine steady_takeCollision recorded ?_ _
      rw [t.recordBit_transmits]
      exact State.transmits_of_firstCollision collides
    · exact recorded
  rcases t.sampleSlotBit_cases ldata with eq | ⟨-, result, -, eq⟩ <;> rw [eq]
  · exact compared
  · exact compared.same rfl

theorem steady_takeRise (ldata : Level) : Steady s (t.takeRise ldata) := by
  rcases t.takeRise_cases ldata with ⟨-, eq⟩ | ⟨-, eq⟩ <;> rw [eq]
  · refine steady_sampleSlotBit ?_ ldata
    exact k.same rfl
  · exact k.same rfl

/-- An abort sends nothing on (R42). -/
theorem steady_abortRound (order : List NoticeBlock) : Steady s (t.abortRound order) :=
  { k with sends := nofun }

/-- The outcome of a round leaves nothing to send (R39). -/
theorem steady_takeOutcome (order : List NoticeBlock) : Steady s (t.takeOutcome order) :=
  { k with sends := nofun }

end

section
variable (s : State) (cause : Cause)

theorem State.changeAtClose_frame : (s.changeAtClose cause).setup = s.setup ∧
    (s.changeAtClose cause).inputs = s.inputs ∧ (s.changeAtClose cause).detectors = s.detectors ∧
    (s.changeAtClose cause).resetting = s.resetting := by
  cases cause <;> simp [State.changeAtClose]

theorem State.changeAtClose_ne_setup (left : s.member.state ≠ .setup) :
    (s.changeAtClose cause).member.state ≠ .setup := by
  cases cause <;> simp [State.changeAtClose, Membership.enterListen, left]

theorem State.changeAtClose_silent (silent : s.transmits = false) : (s.changeAtClose cause).transmits = false := by
  unfold State.transmits at silent ⊢
  cases cause <;> simp [State.changeAtClose, FrameUnit.afterOff, FrameUnit.reset, silent]

end

section
variable {s t : State} (k : Steady s t)
include k

/-- A change at a close is one of a station that is not in SETUP and has nothing to send (R80). -/
theorem steady_changeAtClose (left : t.member.state ≠ .setup) (silent : t.transmits = false) (cause : Cause) :
    Steady s (t.changeAtClose cause) := by
  obtain ⟨setup, inputs, detectors, resetting⟩ := t.changeAtClose_frame cause
  refine k.enter left (t.changeAtClose_ne_setup cause left) (fun sends => ?_) setup inputs detectors resetting
  exact absurd sends (ne_true_of_eq_false (t.changeAtClose_silent cause silent))

theorem steady_closeRound (order : List NoticeBlock) : Steady s (t.closeRound order) := by
  have taken := steady_takeOutcome k order
  rcases t.closeRound_cases order with ⟨-, eq⟩ | ⟨cause, due, eq⟩ <;> rw [eq]
  · exact taken
  · refine steady_changeAtClose taken ?_ rfl cause
    show t.member.state ≠ .setup
    rcases t.changeDue_causes _ _ _ due with ⟨state, -⟩ | ⟨state, -⟩ | ⟨state, -⟩ <;> rw [state] <;> decide

/-! ### Requests -/

theorem steady_addPending (e : Entry) (amount : Int) : Steady s (t.addPending e amount) := by
  unfold State.addPending
  exact k.same rfl

theorem steady_requestZero (entry : Byte) : Steady s (t.requestZero entry).1 := by
  rcases t.requestZero_cases entry with ⟨_, eq⟩ | ⟨e, _, _, _, _, _, _, eq⟩ <;> rw [eq]
  · exact k
  · exact k.same rfl

theorem steady_requestAdjust (entry : Byte) (amount : Half) : Steady s (t.requestAdjust entry amount).1 := by
  rcases t.requestAdjust_cases entry amount with ⟨_, eq⟩ | ⟨e, _, _, _, eq⟩ <;> rw [eq]
  · exact k
  · exact steady_addPending k e _

theorem steady_requestOutput (output level : Byte) : Steady s (t.requestOutput output level).1 := by
  rcases t.requestOutput_cases output level with ⟨_, eq⟩ | ⟨o, l, _, _, _, _, eq⟩ <;> rw [eq]
  · exact k
  · exact k.same rfl

theorem steady_requestFreeze : Steady s t.requestFreeze.1 := by
  rcases t.requestFreeze_cases with ⟨_, eq⟩ | ⟨_, eq⟩ <;> rw [eq]
  · exact k
  · exact k.same rfl

theorem steady_requestLeave : Steady s t.requestLeave.1 := by
  rcases t.requestLeave_cases with ⟨_, eq⟩ | ⟨_, eq⟩ <;> rw [eq]
  · exact k
  · exact k.same rfl

theorem steady_releaseSnapshot : Steady s t.releaseSnapshot.1 := by
  unfold State.releaseSnapshot
  split
  · exact k
  · exact k.same rfl

/-- A station that leaves OFF for LISTEN sends nothing, as its replica was not valid (R83, R99). -/
theorem steady_requestRejoin (lmark lbeat : Level) : Steady s (t.requestRejoin lmark lbeat).1 := by
  rcases t.requestRejoin_cases lmark lbeat with eq | ⟨stale, eq⟩ <;> rw [eq]
  · exact k
  · have left : t.member.state ≠ .setup := by rcases stale with state | state <;> rw [state] <;> decide
    refine k.enter left nofun (fun sends => ?_) rfl rfl rfl rfl
    have valid : t.valid = true := k.sends sends
    rcases stale with state | state <;> rw [State.valid, state] at valid <;> exact nomatch valid

end

/-- A request whose effect leaves the record and the counting side, taken in a transaction (R148, R150). -/
theorem steady_takeRequest {s : State} (k : Steady s s) {code : Byte} {operands : List Byte}
    {effect : State → State × Answer} (done : Steady s (effect s).1) :
    Leads (Steady s) (takeRequest code operands effect s) := by
  rcases takeRequest_cases code operands effect s with ⟨-, eq⟩ | ⟨completes, eq⟩ <;> rw [eq, leads_next]
  · exact k
  · have busy : s.tap.state ≠ .idle := by
      rcases Tap.state_of_completes completes with state | state <;> rw [state] <;> decide
    exact done.withTap (fun resets => k.not_resetting busy (done.reset resets).1) _

section
variable {s : State} (k : Steady s s)
include k

theorem steady_reading {code : Byte} {operands : List Byte} {f : State → Answer} :
    Leads (Steady s) (takeRequest code operands (reading f) s) := steady_takeRequest k k

theorem steady_execUnknown (code : Byte) : Leads (Steady s) (execUnknown code s) := by
  unfold execUnknown
  split
  · exact steady_reading k
  · exact (leads_next _ _).mpr k

/-! ### The edges of the tap, the end of a reset, and timers -/

theorem steady_idle : Steady s s.idle := by
  rcases s.idle_cases with ⟨-, eq⟩ | ⟨-, eq⟩ <;> rw [eq]
  · exact k.same rfl
  · exact k

/-- The end of a reset records its cause alone in the Setup store (R161). -/
theorem steady_execResetEnd (fmt1 fmt0 : Level) : Leads (Steady s) (execResetEnd fmt1 fmt0 s) := by
  unfold execResetEnd
  split <;> rw [leads_next]
  · exact k
  · exact { k with reset := nofun }

/-- During a reset a change of TSEL leaves the tap idle (entry 19). -/
theorem steady_execTselFall (fall : SelectFall) : Leads (Steady s) (execTselFall fall s) := by
  unfold execTselFall
  refine leads_ite (fun _ => (leads_next _ _).mpr k) fun _ => leads_ite (fun _ => ?_) fun quiet =>
    leads_ite (fun _ => ?_) fun _ => ?_
  · exact (leads_next _ _).mpr (k.same rfl)
  all_goals exact (leads_next _ _).mpr (k.withTap quiet _)

theorem steady_execTselRise : Leads (Steady s) (execTselRise s) := by
  unfold execTselRise
  refine leads_ite (fun _ => (leads_next _ _).mpr k) fun _ => leads_ite (fun _ => ?_) fun quiet => ?_
  · exact (leads_next _ _).mpr (k.same rfl)
  · exact (leads_next _ _).mpr (k.withTap quiet _)

theorem steady_execTclkSamplingEdge (tdi : Level) (elapsed : Nat) :
    Leads (Steady s) (execTclkSamplingEdge tdi elapsed s) := by
  by_cases quiet : s.resetting.isSome = true
  · have idle := (k.reset quiet).2.1
    simp [execTclkSamplingEdge, idle, k]
  · simp only [execTclkSamplingEdge, State.withEdge_eq]
    split
    case h_1 | h_2 => exact (leads_next _ _).mpr k
    case h_5 =>
      split
      · exact (leads_next _ _).mpr (k.withTap quiet _)
      · exact (leads_next _ _).mpr k
    all_goals exact (leads_next _ _).mpr (k.withTap quiet _)

theorem steady_execTakeNoticeDelivered : Leads (Steady s) (execTakeNoticeDelivered s) := by
  unfold execTakeNoticeDelivered
  split
  · next a n _ delivers =>
    have busy : s.tap.state ≠ .idle := fun idle => by simp [Tap.deliversNotice, idle] at delivers
    exact (leads_next _ _).mpr ((k.withTap (k.not_resetting busy) _).same rfl)
  · exact (leads_next _ _).mpr k

/-- An event that leads to `t` where it can arise, and else leaves the station as it is. -/
theorem steady_event {c : Prop} [Decidable c] {t : State} (taken : Steady s t) :
    Leads (Steady s) (if c then .next t else .next s) :=
  leads_ite (fun _ => (leads_next _ _).mpr taken) (fun _ => (leads_next _ _).mpr k)

theorem steady_execQuietTimerExpiry : Leads (Steady s) (execQuietTimerExpiry s) := by
  refine leads_ite (fun _ => ?_) (fun _ => (leads_next _ _).mpr k)
  split <;> exact (leads_next _ _).mpr (k.same rfl)

theorem steady_execLbeatHalfPeriodExpiry : Leads (Steady s) (execLbeatHalfPeriodExpiry s) := by
  refine leads_ite (fun _ => ?_) (fun _ => (leads_next _ _).mpr k)
  split <;> exact (leads_next _ _).mpr (k.same rfl)

end

/-! ### What changes the record or the counting side -/

/-- In SETUP no record is committed (R160). -/
theorem setup_uncommitted {s : State} (wf : SetupWf s) (setup : s.member.state = .setup) :
    s.setup.committed = false := by
  obtain ⟨-, mode, -⟩ := wf
  exact eq_false_of_ne_true fun committed => mode.mp committed setup

/-- Without a committed record every input and detector stands at its reset values (R102, R114). -/
theorem counting_at_reset {s : State} (h : CountingWf s) (uncommitted : s.setup.committed = false) :
    (∀ i : Fin 8, s.inputs.inputs[i] = { primed := false, level := .low, run := 0 }) ∧
    ∀ p : Fin 4, s.detectors[p] = Detector.reset := by
  obtain ⟨-, inputs, detectors⟩ := h
  rw [State.settings_of_uncommitted uncommitted] at inputs detectors
  exact ⟨fun i => (inputs i).2 (Record.inputMode_nil i), fun p => (detectors p).1 (Record.pairInUse_nil p)⟩

/-- Inputs and detectors at their reset values meet the laws of counting under every record. -/
theorem countingWf_of_reset {s : State} (wf : SetupWf s)
    (inputs : ∀ i : Fin 8, s.inputs.inputs[i] = { primed := false, level := .low, run := 0 })
    (detectors : ∀ p : Fin 4, s.detectors[p] = Detector.reset) : CountingWf s := by
  refine (countingWf_iff s).mpr ⟨wf, fun i => ?_, fun p => .inr ⟨detectors p, fun _ => ?_⟩⟩
  · rw [State.InputWf, inputs i]
    exact ⟨by decide, fun _ => rfl⟩
  · rw [inputs (pairA p), inputs (pairB p)]
    exact ⟨rfl, rfl⟩

/-- A reset leaves the record in its canonical form and every block at its reset values (R161). -/
theorem countingWf_blocksReset (s : State) {record : Record} (wf : record.wf = true) (kind : ResetKind) :
    CountingWf (s.blocksReset record kind) := by
  refine countingWf_of_reset ⟨wf, ?_, nofun, rfl, nofun, fun _ => ⟨rfl, rfl⟩⟩ ?_ ?_
  · exact iff_of_false nofun fun left => left rfl
  · exact fun i => Vector.getElem_replicate _
  · exact fun p => Vector.getElem_replicate _

theorem countingWf_takeRequest {s : State} (h : CountingWf s) {code : Byte} {operands : List Byte}
    {effect : State → State × Answer} (done : s.tap.state ≠ .idle → CountingWf (effect s).1)
    (resetting : (effect s).1.resetting = s.resetting) :
    Leads CountingWf (takeRequest code operands effect s) := by
  rcases takeRequest_cases code operands effect s with ⟨-, eq⟩ | ⟨completes, eq⟩ <;> rw [eq, leads_next]
  · exact h
  · have busy : s.tap.state ≠ .idle := by
      rcases Tap.state_of_completes completes with state | state <;> rw [state] <;> decide
    have effected := done busy
    have k := Steady.refl effected.1
    have quiet := (Steady.refl h.1).not_resetting busy
    exact countingWf_of_steady effected (k.withTap (by rw [resetting]; exact quiet) _)

theorem State.requestWrite_resetting (s : State) (offset : Half) (length : Byte) (data : List Byte) :
    (s.requestWrite offset length data).1.resetting = s.resetting := by
  rcases s.requestWrite_cases offset length data with ⟨_, eq⟩ | ⟨-, -, -, -, eq⟩ <;> rw [eq]

theorem State.requestCommit_resetting (s : State) (lmark lbeat : Level) :
    (s.requestCommit lmark lbeat).1.resetting = s.resetting := by
  rcases s.requestCommit_cases lmark lbeat with ⟨-, eq⟩ | ⟨_, -, -, eq⟩ | ⟨-, -, eq⟩ <;> rw [eq]
  rfl

theorem State.PairWf.same {s t : State} {p : Fin 4} (h : s.PairWf p) (settings : t.settings = s.settings)
    (inputs : t.inputs = s.inputs) (detector : t.detectors[p] = s.detectors[p]) : t.PairWf p := by
  rw [State.PairWf, State.blockedAt, State.blockedAt, settings, inputs, detector]
  exact h

section
variable {s : State} (h : CountingWf s)
include h

theorem countingWf_execResetPinFall : Leads CountingWf (execResetPinFall s) := by
  have record : s.setup.record.wf = true := h.1.1
  unfold execResetPinFall
  split <;> rw [leads_next]
  · exact countingWf_blocksReset s record .pin
  · exact h

/-- SETUP_WRITE reaches a record that is not committed, and keeps its canonical form (R1, R162). -/
theorem countingWf_requestWrite (offset : Half) {length : Byte} {data : List Byte}
    (complete : data.length = dataBytes length) : CountingWf (s.requestWrite offset length data).1 := by
  rcases s.requestWrite_cases offset length data with ⟨_, eq⟩ | ⟨setup, least, most, inside, eq⟩ <;> rw [eq]
  · exact h
  · have uncommitted := setup_uncommitted h.1 setup
    obtain ⟨inputs, detectors⟩ := counting_at_reset h uncommitted
    obtain ⟨⟨wf, mode, -, clock, sends, resets⟩, -⟩ := h
    have fits : offset.toNat + data.length ≤ Config.recordBytes := by
      rw [complete, dataBytes, if_pos ⟨least, most⟩]
      exact inside
    have written := Record.wf_writeAll wf data fits
    exact countingWf_of_reset ⟨written, mode, fun committed => absurd committed (ne_true_of_eq_false uncommitted),
      clock, sends, resets⟩ inputs detectors

/-- SETUP_COMMIT begins to sample inputs and detectors that stand at their reset values (R103, R164, R169). -/
theorem countingWf_requestCommit (busy : s.tap.state ≠ .idle) (lmark lbeat : Level) :
    CountingWf (s.requestCommit lmark lbeat).1 := by
  rcases s.requestCommit_cases lmark lbeat with ⟨-, eq⟩ | ⟨offset, -, -, eq⟩ | ⟨setup, accepted, eq⟩ <;> rw [eq]
  · exact h
  · exact countingWf_of_steady h { Steady.refl h.1 with }
  · have uncommitted := setup_uncommitted h.1 setup
    obtain ⟨inputs, detectors⟩ := counting_at_reset h uncommitted
    have quiet := (Steady.refl h.1).not_resetting busy
    obtain ⟨⟨wf, -, -, -, sends, -⟩, -⟩ := h
    have store : (s.commitRecord lmark lbeat).setup = s.setup.commit := rfl
    refine countingWf_of_reset ⟨wf, iff_of_true rfl nofun, fun _ => ?_, rfl, fun sent => ?_,
      fun resets => absurd resets quiet⟩ inputs detectors
    · simpa only [store, SetupStore.commit, and_true] using accepted
    · exact absurd setup (State.ne_setup_of_valid (sends sent))

/-- SAMPLE_INSTANT, input by input and pair by pair (R103 to R116). -/
theorem countingWf_takeSamples (levels : Byte) (order : List (Fin 8)) : CountingWf (s.takeSamples levels order) := by
  obtain ⟨wf, inputs, pairs⟩ := (countingWf_iff s).mp h
  refine (countingWf_iff _).mpr ⟨?_, fun i => ?_, fun p => (pairs p).takeSamples levels order wf⟩
  · rw [s.takeSamples_frame]; exact wf
  · rw [State.InputWf, s.takeSamples_inputs, s.takeSamples_settings]
    exact (inputs i).sampled levels

/-- The passage limit's expiry keeps the marks (R120). -/
theorem countingWf_execPassageTimerExpiry (pair : Fin 4) : Leads CountingWf (execPassageTimerExpiry pair s) := by
  refine leads_ite (fun runs => (leads_next _ _).mpr ?_) (fun _ => (leads_next _ _).mpr h)
  obtain ⟨wf, inputs, pairs⟩ := (countingWf_iff s).mp h
  refine (countingWf_iff _).mpr ⟨wf, inputs, fun p => ?_⟩
  by_cases own : pair = p
  · subst own
    rcases pairs pair with ⟨inUse, primedA, primedB, markA, markB, -, -⟩ | ⟨reset, -⟩
    · refine .inl ⟨inUse, primedA, primedB, ?_⟩
      show Detector.Agrees (s.detectors.set pair _)[pair] (s.blockedAt (pairA pair)) (s.blockedAt (pairB pair))
      rw [Fin.getElem_fin, Vector.getElem_set_self]
      exact ⟨markA, markB, .inl rfl, nofun⟩
    · rw [reset] at runs
      exact nomatch runs
  · have ne : pair.val ≠ p.val := fun eq => own (Fin.ext eq)
    exact (pairs p).same rfl rfl (Vector.getElem_set_ne pair.isLt p.isLt ne)

/-- Every command keeps the laws: it leaves the record and the counting side, or is a reset, a request to the Setup
store, a sample instant or a passage timer. -/
theorem countingWf_exec (c : Instr) : Leads CountingWf (exec c s) := by
  have k := Steady.refl h.1
  have keeps : ∀ {outcome}, Leads (Steady s) outcome → Leads CountingWf outcome := fun steady =>
    steady.mono fun _ => countingWf_of_steady h
  cases c with
  | powerOnReset => exact (leads_next _ _).mpr (countingWf_blocksReset s rfl .powerOn)
  | resetPinFall => exact countingWf_execResetPinFall h
  | resetEnd fmt1 fmt0 => exact keeps (steady_execResetEnd k fmt1 fmt0)
  | tselFall fall => exact keeps (steady_execTselFall k fall)
  | tselRise => exact keeps (steady_execTselRise k)
  | unknown code => exact keeps (steady_execUnknown k code)
  | status | readEntry | readOutbox | readRoster | takeNotice | readSnapshot | setupRead =>
    exact keeps (steady_reading k)
  | takeNoticeDelivered => exact keeps (steady_execTakeNoticeDelivered k)
  | releaseSnapshot => exact keeps (steady_takeRequest k (steady_releaseSnapshot k))
  | freeze => exact keeps (steady_takeRequest k (steady_requestFreeze k))
  | zero entry =>
    exact keeps (steady_takeRequest (effect := fun t => t.requestZero entry) k (steady_requestZero k entry))
  | adjust entry amount =>
    exact keeps (steady_takeRequest (effect := fun t => t.requestAdjust entry amount) k
      (steady_requestAdjust k entry amount))
  | setOutput output level =>
    exact keeps (steady_takeRequest (effect := fun t => t.requestOutput output level) k
      (steady_requestOutput k output level))
  | leave => exact keeps (steady_takeRequest k (steady_requestLeave k))
  | rejoin lmark lbeat =>
    exact keeps (steady_takeRequest (effect := fun t => t.requestRejoin lmark lbeat) k
      (steady_requestRejoin k lmark lbeat))
  | setupWrite offset length data =>
    exact leads_ite (fun complete => countingWf_takeRequest (effect := fun t => t.requestWrite offset length data) h
      (fun _ => countingWf_requestWrite h offset complete) (s.requestWrite_resetting offset length data))
      (fun _ => (leads_next _ _).mpr h)
  | setupCommit lmark lbeat =>
    exact countingWf_takeRequest (effect := fun t => t.requestCommit lmark lbeat) h
      (fun busy => countingWf_requestCommit h busy lmark lbeat) (s.requestCommit_resetting lmark lbeat)
  | syncLmarkFall | syncLbeatChange | stallTimerExpiry | waitLmarkRise | pulseTimerExpiry | lbeatFall =>
    exact keeps (steady_event k (k.same rfl))
  | quietTimerExpiry => exact keeps (steady_execQuietTimerExpiry k)
  | roundTimerExpiry => exact keeps (steady_event k ((steady_compose k).same rfl))
  | lbeatHalfPeriodExpiry => exact keeps (steady_execLbeatHalfPeriodExpiry k)
  | ownFrameSent ldata | frameReceived ldata | lbeatRise ldata => exact keeps (steady_event k (steady_takeRise k ldata))
  | roundClose ldata order => exact keeps (steady_event k (steady_closeRound (steady_takeRise k ldata) order))
  | lmarkFallInRound order | beatStuckExpiry order => exact keeps (steady_event k (steady_abortRound k order))
  | sampleInstant levels order =>
    exact leads_ite (fun _ => (leads_next _ _).mpr (countingWf_takeSamples h levels order))
      (fun _ => (leads_next _ _).mpr h)
  | passageTimerExpiry pair => exact countingWf_execPassageTimerExpiry h pair
  | tclkSamplingEdge tdi elapsed => exact keeps (steady_execTclkSamplingEdge k tdi elapsed)

end

/-- Settles O58: a step is one command, or time in which only the tap moves. -/
theorem everyStepKeepsCounting : Obligations.EveryStepKeepsCounting := by
  unfold Obligations.EveryStepKeepsCounting
  intro s t h stepped
  unfold step at stepped
  split at stepped
  · exact Host.Outcome.next.inj stepped ▸ countingWf_of_steady h (steady_idle (Steady.refl h.1))
  · next c rest _ =>
    have queued : CountingWf { s with pending := rest } := h
    exact countingWf_exec queued c t stepped

end Sys2Proof.Machine

namespace Sys2Proof.Machine

open Sys2Proof.Safety

/-! ### A sample instant with one accepted change -/

/-- The station once every input has been read, where input i alone changes and every other used input reads as its
filtered level (R105). -/
def State.withChange (s : State) (levels : Byte) (i : Fin 8) : State :=
  { s with inputs := { s.inputs with inputs := Vector.ofFn fun j : Fin 8 =>
    if j = i then ({ primed := true, level := Level.ofBit (levels.getLsbD i.val), run := 0 } : Input)
    else (if s.settings.inputMode j = .unused then s.inputs.inputs[j] else { s.inputs.inputs[j] with run := 0 }) } }

@[simp] theorem State.withChange_settings (s : State) (levels : Byte) (i : Fin 8) :
    (s.withChange levels i).settings = s.settings := rfl

@[simp] theorem State.withChange_level (s : State) (levels : Byte) (i : Fin 8) :
    (s.withChange levels i).inputs.inputs[i].level = Level.ofBit (levels.getLsbD i.val) := by
  simp [State.withChange]

section
variable {s : State} {levels : Byte} {i : Fin 8} (change : acceptsChange s levels i)
  (others : ∀ j : Fin 8, j ≠ i → s.settings.inputMode j = .unused ∨
    (s.inputs.inputs[j].primed = true ∧ s.inputs.inputs[j].level = Level.ofBit (levels.getLsbD j.val)))
include change others

theorem acceptsChange_iff_of_single (j : Fin 8) : acceptsChange s levels j ↔ j = i := by
  constructor
  · rintro ⟨used, -, differs, -⟩
    by_contra other
    rcases others j other with unused | ⟨-, same⟩
    · exact used unused
    · exact differs same
  · rintro rfl
    exact change

theorem State.acceptedChanges_of_single (order : List (Fin 8)) : s.acceptedChanges levels order = [i] := by
  have distinct : (s.acceptedChanges levels order).Nodup := (eventOrder_nodup order).filter _
  refine List.perm_singleton.mp ((List.perm_ext_iff_of_nodup distinct (List.nodup_singleton i)).mpr fun j => ?_)
  rw [State.mem_acceptedChanges, acceptsChange_iff_of_single change others, List.mem_singleton]

theorem samplesRead_of_single (started : ∀ p : Fin 4, s.settings.pairInUse p = true →
    s.inputs.inputs[pairA p].primed = true) : samplesRead s levels = s.withChange levels i := by
  have inputs : (samplesRead s levels).inputs.inputs = (s.withChange levels i).inputs.inputs := by
    refine congrArg Vector.ofFn (funext fun j => ?_)
    have alone := acceptsChange_iff_of_single change others j
    by_cases own : j = i
    · subst own
      obtain ⟨used, primed, differs, -⟩ := change
      rw [if_neg used, if_neg (ne_false_of_eq_true primed), if_neg differs, if_pos (alone.mpr rfl), if_pos rfl]
    · rw [if_neg own]
      rcases others j own with unused | ⟨primed, same⟩
      · rw [if_pos unused, if_pos unused]
      · rw [if_neg (ne_false_of_eq_true primed), if_pos same]
  have detectors : (samplesRead s levels).detectors = s.detectors := by
    refine Vector.ext fun p inside => ?_
    refine (samplesRead_detector s levels ⟨p, inside⟩).trans (if_neg fun ⟨inUse, fresh⟩ => ?_)
    exact ne_false_of_eq_true (started _ inUse) fresh
  have read : samplesRead s levels = { s with
    inputs := { s.inputs with inputs := (samplesRead s levels).inputs.inputs }
    detectors := (samplesRead s levels).detectors } := rfl
  rw [read, inputs, detectors]
  rfl

/-- One accepted change is one event, taken once every input has been read (R107). -/
theorem exec_sampleInstant_of_single (clock : s.inputs.clock = true) (started : ∀ p : Fin 4,
    s.settings.pairInUse p = true → s.inputs.inputs[pairA p].primed = true) (order : List (Fin 8)) :
    exec (.sampleInstant levels order) s = .next (takesEvent (s.withChange levels i) i) := by
  have runs : exec (.sampleInstant levels order) s = .next (s.takeSamples levels order) := if_pos clock
  rw [runs, State.takeSamples_eq, State.acceptedChanges_of_single change others,
    samplesRead_of_single change others started, List.foldl_cons, List.foldl_nil, State.takeInputEvent_eq_takesEvent]

end

/-! ### The event of a single input -/

/-- A single input adds its map when its edge select counts a change to the level that `bit` stands for (R109). -/
theorem takesEvent_single {s : State} {i : Fin 8} (mode : s.settings.inputMode i = .single) {bit : Bool}
    (now : s.inputs.inputs[i].level = Level.ofBit bit) :
    takesEvent s i = if (match s.settings.edgeSelect i with
      | .rising => bit
      | .falling => !bit
      | .both => true) then addsMap s (s.settings.firstMap i) else s := by
  simp only [takesEvent, mode, now]
  cases s.settings.edgeSelect i <;> cases bit <;> rfl

/-- Settles O50: the one event of the instant is that of a single input. -/
theorem singleEdgeAddsAmount : Obligations.SingleEdgeAddsAmount := by
  unfold Obligations.SingleEdgeAddsAmount
  intro s levels order i clock mode primed differs full others started counted sampled
  have change : acceptsChange s levels i := ⟨by rw [mode]; decide, primed, differs, full⟩
  rw [exec_sampleInstant_of_single change others clock started order]
  exact congrArg Host.Outcome.next
    (takesEvent_single (s := s.withChange levels i) mode (s.withChange_level levels i))

/-! ### The table of a passage detector -/

/-- The rows of Table 7-4: state, change, next state, passage. -/
def passageRows : List (PassageState × PairChange × PassageState × Passage) :=
  [ (.idle, .aBlocks, .a1, .none), (.idle, .bBlocks, .b1, .none),
    (.a1, .aClears, .idle, .none), (.a1, .bBlocks, .abFwd, .none),
    (.abFwd, .aClears, .b2Fwd, .none), (.abFwd, .bClears, .a1, .none),
    (.b2Fwd, .aBlocks, .abFwd, .none), (.b2Fwd, .bClears, .idle, .forward),
    (.b1, .aBlocks, .abRev, .none), (.b1, .bClears, .idle, .none),
    (.abRev, .aClears, .b1, .none), (.abRev, .bClears, .a2Rev, .none),
    (.a2Rev, .aClears, .idle, .reverse), (.a2Rev, .bBlocks, .abRev, .none) ]

/-- The rows are those of the model's table (R116). -/
theorem passageTable_of_mem_rows : ∀ row ∈ passageRows, passageTable row.1 row.2.1 = some row.2.2 := by decide

section
variable (limit : Option Nat) (d : Detector) (change : PairChange)

@[simp] theorem Detector.mark_markA : (d.mark change).markA =
    if change = .aBlocks then true else if change = .aClears then false else d.markA := by cases change <;> rfl

@[simp] theorem Detector.mark_markB : (d.mark change).markB =
    if change = .bBlocks then true else if change = .bClears then false else d.markB := by cases change <;> rfl

@[simp] theorem Detector.mark_state : (d.mark change).state = d.state := by cases change <;> rfl

@[simp] theorem Detector.mark_timer : (d.mark change).timer = d.timer := by cases change <;> rfl

/-- Outside STUCK the timer is stopped in IDLE alone (R119). -/
theorem timerIn_of_ne_stuck {state : PassageState} (free : state ≠ .stuck) :
    timerIn limit state = if state = .idle then none else limit := by
  cases state with
  | stuck => exact absurd rfl free
  | idle | a1 | abFwd | b2Fwd | b1 | abRev | a2Rev => rfl

variable {d change}

/-- A detector outside STUCK takes the row of its state and of the change (R116, R119). -/
theorem Detector.take_of_row {next : PassageState} {passage : Passage} (free : d.state ≠ .stuck)
    (row : passageTable d.state change = some (next, passage)) : d.take limit change = (
      { state := next
        markA := if change = .aBlocks then true else if change = .aClears then false else d.markA
        markB := if change = .bBlocks then true else if change = .bClears then false else d.markB
        timer := if next = .idle then none else limit }, passage) := by
  rw [← d.mark_markA, ← d.mark_markB, ← timerIn_of_ne_stuck limit (passageTable_ne_stuck row), Detector.take,
    if_neg free, row]

/-- In STUCK a detector follows the marks and counts no passage (R121). -/
theorem Detector.take_of_stuck (stuck : d.state = .stuck) : d.take limit change = (
    { d.mark change with
      state := if (d.mark change).markA = false ∧ (d.mark change).markB = false then .idle else .stuck }, .none) := by
  have marked : { d.mark change with state := .stuck } = d.mark change := by rw [← stuck, ← d.mark_state change]
  rcases d.take_cases limit change with ⟨-, blocked, eq⟩ | ⟨-, clear, eq⟩ | ⟨_, _, free, -, -⟩ | ⟨free, -, -⟩
  · have kept : ¬((d.mark change).markA = false ∧ (d.mark change).markB = false) := fun ⟨clearA, clearB⟩ => by
      rw [clearA, clearB] at blocked
      exact nomatch blocked
    rw [eq, if_neg kept, marked]
  · rw [eq, if_pos (Bool.or_eq_false_iff.mp clear)]
  · exact absurd stuck free
  · exact absurd stuck free

end

/-! ### The event of a pair -/

/-- An input of a pair in use hands its change to the pair's detector (R111). -/
theorem takesEvent_pair {s : State} {p : Fin 4} {i : Fin 8} (inUse : s.settings.pairInUse p = true)
    (own : i = pairA p ∨ i = pairB p) :
    let blocked := decide (s.inputs.inputs[i].level = s.settings.blockedLevel (pairA p))
    takesEvent s i = pairTakes s p (if i = pairA p then (if blocked then .aBlocks else .aClears)
      else (if blocked then .bBlocks else .bClears)) := by
  obtain ⟨modeA, modeB⟩ := (s.settings.pairInUse_iff p).mp inUse
  rcases own with rfl | rfl
  · simp only [takesEvent, modeA, pairOf_pairA, if_true]
  · simp only [takesEvent, modeB, pairOf_pairB, if_neg (pairB_ne_pairA p)]

/-- Settles O51: the table row by row and STUCK, then the one event of the instant as that of a pair. -/
theorem detectorFollowsTable : Obligations.DetectorFollowsTable := by
  unfold Obligations.DetectorFollowsTable
  refine ⟨fun limit d change => ⟨fun next passage free listed => ?_, fun stuck => ?_⟩, ?_⟩
  · exact Detector.take_of_row limit free (passageTable_of_mem_rows _ listed)
  · rw [Detector.take_of_stuck limit stuck]
    exact ⟨rfl, d.mark_timer change, rfl, rfl, rfl⟩
  · intro s levels order p i clock inUse own primed differs full others started m blocked change taken moved
    have accepted : acceptsChange s levels i := ⟨Record.used_of_pairInUse inUse own, primed, differs, full⟩
    rw [exec_sampleInstant_of_single accepted others clock started order,
      takesEvent_pair (s := s.withChange levels i) inUse own, s.withChange_level]
    rfl

end Sys2Proof.Machine

namespace Sys2Proof.Machine

/-! ### The passage limit and the pulse width -/

/-- The passage limit's expiry takes a running detector to STUCK, keeps its marks and posts one PASSAGE_STUCK (R120). -/
theorem execPassageTimerExpiry_of_running {s : State} {p : Fin 4} (running : s.detectors[p].timer.isSome = true) :
    execPassageTimerExpiry p s = .next (State.post { s with
      detectors := s.detectors.set p { s.detectors[p] with state := .stuck, timer := none } }
      (passageStuckNotice s.noticeCs p)) :=
  if_pos running

/-- A stopped passage timer does not expire (entry 4). -/
theorem execPassageTimerExpiry_of_stopped {s : State} {p : Fin 4} (stopped : s.detectors[p].timer = none) :
    execPassageTimerExpiry p s = .next s :=
  if_neg (Option.not_isSome_iff_eq_none.mpr stopped)

/-- A pulse's expiry drives its output at the safe level and stops the timer (R130). -/
theorem execPulseTimerExpiry_of_running {s : State} {o : Fin 8} (running : s.outputs[o].pulse.isSome = true) :
    execPulseTimerExpiry o s = .next { s with
      outputs := s.outputs.set o { s.outputs[o] with level := s.settings.safeLevel o, pulse := none } } :=
  if_pos running

/-- A stopped pulse timer does not expire (entry 4). -/
theorem execPulseTimerExpiry_of_stopped {s : State} {o : Fin 8} (stopped : s.outputs[o].pulse = none) :
    execPulseTimerExpiry o s = .next s :=
  if_neg (Option.not_isSome_iff_eq_none.mpr stopped)

/-- Settles O52: each timer, running and stopped. -/
theorem timersEndCrossingsAndPulses : Obligations.TimersEndCrossingsAndPulses := by
  unfold Obligations.TimersEndCrossingsAndPulses
  intro s
  refine ⟨fun p running => ?_, fun p stopped => ?_, fun o running => ?_, fun o stopped => ?_⟩
  · exact execPassageTimerExpiry_of_running running
  · exact execPassageTimerExpiry_of_stopped stopped
  · exact execPulseTimerExpiry_of_running running
  · exact execPulseTimerExpiry_of_stopped stopped

end Sys2Proof.Machine

namespace Sys2Proof.Machine

open Sys2Proof.Safety

/-! ### SET_OUTPUT -/

theorem outputOperand_of_val {output : Byte} {o : Fin 8} (names : o.val = output.toNat) :
    outputOperand output = some o := by
  have inside : output.toNat < 8 := names ▸ o.isLt
  rw [outputOperand, dif_pos inside]
  exact congrArg some (Fin.ext names.symm)

theorem outputOperand_of_outside {output : Byte} (outside : 7 < output.toNat) : outputOperand output = none :=
  dif_neg (by omega)

theorem levelOperand_ofBool (bit : Bool) :
    levelOperand ((BitVec.ofBool bit).setWidth 8) = some (Level.ofBit bit) := by
  cases bit <;> rfl

theorem levelOperand_of_ne {level : Byte} (notLow : level ≠ 0x00) (notHigh : level ≠ 0x01) :
    levelOperand level = none :=
  (if_neg notLow).trans (if_neg notHigh)

section
variable {s : State} {output level : Byte}

/-- Operand bytes that name no output or no level (R134). -/
theorem State.requestOutput_outside (used : s.member.state ≠ .setup)
    (bad : outputOperand output = none ∨ levelOperand level = none) :
    s.requestOutput output level = (s, answerOf .badOperand) := by
  rw [State.requestOutput, if_neg used]
  rcases bad with noOutput | noLevel
  · rw [noOutput]
  · rw [noLevel]
    cases outputOperand output <;> rfl

/-- Operand bytes that name an output and a level are judged by the output's source alone (R134). -/
theorem State.requestOutput_inside (used : s.member.state ≠ .setup) {o : Fin 8} {l : Level}
    (names : outputOperand output = some o) (carries : levelOperand level = some l) :
    s.requestOutput output level =
      if s.settings.outputSource o = .local then
        ({ s with outputs := s.outputs.set o { s.outputs[o] with level := l, latch := some l } }, answerOk [])
      else (s, answerOf .badOperand) := by
  rw [State.requestOutput, if_neg used, names, carries]

end

/-- Settles O18: SET_OUTPUT judges its operand bytes, then the source of the output. -/
theorem setOutputWritesLatch : Obligations.SetOutputWritesLatch := by
  unfold Obligations.SetOutputWritesLatch
  intro s output level used completes
  have taken : exec (.setOutput output level) s = .next (answered s (s.requestOutput output level).1 0x13
      [output, level] (s.requestOutput output level).2) :=
    takeRequest_answered (fun t => t.requestOutput output level) completes
  rw [taken]
  refine ⟨fun bad => ?_, fun o bit names carries => ?_⟩
  · have unread : outputOperand output = none ∨ levelOperand level = none :=
      bad.imp outputOperand_of_outside fun ⟨notLow, notHigh⟩ => levelOperand_of_ne notLow notHigh
    rw [State.requestOutput_outside used unread]
    rfl
  · rw [State.requestOutput_inside used (outputOperand_of_val names) (carries ▸ levelOperand_ofBool bit)]
    refine ⟨fun other => ?_, fun own => ?_⟩
    · rw [if_neg other]
      rfl
    · rw [if_pos own]
      rfl

end Sys2Proof.Machine

namespace Sys2Proof.Machine

/-! ### The evaluation of a commit (R125, R126) -/

section
variable (m : Record) (r : Replica) (before : Vector Watch 32) (e : Entry)

theorem getElem_evaluateWatches : (evaluateWatches m r before)[e] =
    if m.watched e then evaluateWatch before[e] (readValue m r e) (m.watchHigh e) (m.watchLow e) else before[e] :=
  Vector.getElem_ofFn e.isLt

variable {m e}

theorem evaluateWatches_of_unwatched (unwatched : m.watched e = false) :
    (evaluateWatches m r before)[e] = before[e] := by
  rw [getElem_evaluateWatches, unwatched, if_neg Bool.false_ne_true]

variable {before}

/-- Below, a watched entry waits for the value to reach HIGH (R125). -/
theorem evaluateWatches_of_below (watched : m.watched e = true) (below : before[e] = .below) :
    (evaluateWatches m r before)[e] = if m.watchHigh e ≤ readValue m r e then .above else .below := by
  rw [getElem_evaluateWatches, if_pos watched, below, evaluateWatch]

/-- Above, a watched entry waits for the value to fall to LOW (R125). -/
theorem evaluateWatches_of_above (watched : m.watched e = true) (above : before[e] = .above) :
    (evaluateWatches m r before)[e] = if readValue m r e ≤ m.watchLow e then .below else .above := by
  rw [getElem_evaluateWatches, if_pos watched, above, evaluateWatch]

end

/-- The limit notices are those of the entries whose watch state moved, in ascending order (R126). -/
theorem limitNotices_eq_map_filter (m : Record) (r : Replica) (cs : Option Half) (before after : Vector Watch 32) :
    limitNotices m r cs before after =
      ((List.finRange 32).filter fun e : Entry => decide (before[e] ≠ after[e])).map fun e : Entry =>
        limitNotice cs e after[e] (readValue m r e) := by
  rw [limitNotices, ← List.filterMap_eq_map, List.filterMap_filter]
  refine List.filterMap_congr fun e _ => ?_
  by_cases same : before[e] = after[e] <;> simp [same]

theorem limitNotice_eq (cs : Option Half) (e : Entry) (after : Watch) (value : Tally) :
    limitNotice cs e after value =
      { kind := if after = .above then .limitReached else .limitCleared
        cs := cs, subject := some (BitVec.ofNat 8 e.val), value := some value } := by
  cases after <;> rfl

/-! ### WATCH outputs on a transition (R129, R130) -/

section
variable {m : Record} {o : Fin 8} (after : Watch) (out : Output)

theorem levelFor_eq_ite (m : Record) (o : Fin 8) (w : Watch) : levelFor m o w =
    if (m.outputMode o = .level ∧ w = .above) ∨ (m.outputMode o = .levelInverted ∧ w = .below) then
      (m.safeLevel o).flip else m.safeLevel o := by
  unfold levelFor
  split <;> simp_all [onLevel]

/-- A level output takes the level of the new watch state (R129). -/
theorem outputOnTransition_of_followsLevel (follows : (m.outputMode o).followsLevel = true) :
    outputOnTransition m o after out = { out with level := levelFor m o after } :=
  if_pos follows

/-- Which transitions trigger which pulse modes (R130). -/
theorem triggers_iff (mode : OutputMode) (w : Watch) : triggers mode w = true ↔
    mode = .pulseBoth ∨ (mode = .pulseOnReach ∧ w = .above) ∨ (mode = .pulseOnClear ∧ w = .below) := by
  cases mode <;> cases w <;> decide

theorem not_followsLevel_of_triggers {mode : OutputMode} {w : Watch} (triggered : triggers mode w = true) :
    mode.followsLevel = false := by
  rcases (triggers_iff mode w).mp triggered with rfl | ⟨rfl, -⟩ | ⟨rfl, -⟩ <;> rfl

/-- A trigger drives a pulse output on and starts its timer afresh (R130). -/
theorem outputOnTransition_of_triggers (triggered : triggers (m.outputMode o) after = true) :
    outputOnTransition m o after out =
      { out with level := (m.safeLevel o).flip, pulse := some (m.pulseWidth o) } := by
  rw [outputOnTransition, not_followsLevel_of_triggers triggered, if_neg Bool.false_ne_true, if_pos triggered, onLevel]

/-- A transition that is no trigger leaves a pulse output as it is (R130). -/
theorem outputOnTransition_of_pulse (pulses : (m.outputMode o).followsLevel = false)
    (ignored : triggers (m.outputMode o) after = false) : outputOnTransition m o after out = out := by
  rw [outputOnTransition, pulses, ignored, if_neg Bool.false_ne_true, if_neg Bool.false_ne_true]

end

section
variable {m : Record} {before after : Vector Watch 32} (outs : Vector Output 8) {o : Fin 8}

theorem getElem_outputsAfterCommit (m : Record) (before after : Vector Watch 32) (o : Fin 8) :
    (outputsAfterCommit m before after outs)[o] =
      if m.outputSource o = .watch ∧ before[m.outputEntry o] ≠ after[m.outputEntry o] then
        outputOnTransition m o after[m.outputEntry o] outs[o]
      else outs[o] :=
  Vector.getElem_ofFn o.isLt

/-- An output that watches no entry, or one whose watch state stood, stays (R129). -/
theorem outputsAfterCommit_of_unmoved
    (unmoved : m.outputSource o ≠ .watch ∨ before[m.outputEntry o] = after[m.outputEntry o]) :
    (outputsAfterCommit m before after outs)[o] = outs[o] := by
  rw [getElem_outputsAfterCommit, if_neg]
  rintro ⟨watches, moved⟩
  exact unmoved.elim (· watches) moved

theorem outputsAfterCommit_of_moved (watches : m.outputSource o = .watch)
    (moved : before[m.outputEntry o] ≠ after[m.outputEntry o]) :
    (outputsAfterCommit m before after outs)[o] = outputOnTransition m o after[m.outputEntry o] outs[o] := by
  rw [getElem_outputsAfterCommit, if_pos ⟨watches, moved⟩]

end

/-! ### WATCH outputs at a loss and a gain of validity (R131, R132) -/

section
variable (m : Record) (watches : Vector Watch 32) (outs : Vector Output 8) (o : Fin 8)

theorem getElem_outputsWithoutValidity : (outputsWithoutValidity m outs)[o] =
    if m.outputSource o = .watch then { outs[o] with level := m.safeLevel o, pulse := none }
    else { outs[o] with pulse := none } :=
  Vector.getElem_ofFn o.isLt

theorem getElem_outputsWithValidity : (outputsWithValidity m watches outs)[o] =
    if m.outputSource o = .watch then { outs[o] with level := levelFor m o watches[m.outputEntry o] }
    else outs[o] :=
  Vector.getElem_ofFn o.isLt

end

/-- Settles O53: the watch states by the table of R125, their notices, and the WATCH outputs mode by mode. -/
theorem watchesAndOutputsFollowCommit : Obligations.WatchesAndOutputsFollowCommit := by
  unfold Obligations.WatchesAndOutputsFollowCommit
  refine ⟨fun m r before e => ?watchStates, fun m r before after cs => ?notices,
    fun m before after outs o => ?transitions, fun m watches outs o => ?validity⟩
  case watchStates =>
    refine ⟨evaluateWatches_of_unwatched r before, fun watched below => ?_, fun watched above => ?_⟩
    · rw [evaluateWatches_of_below r watched below]
      exact ⟨fun reached => if_pos reached, fun short => if_neg (BitVec.not_le.mpr short)⟩
    · rw [evaluateWatches_of_above r watched above]
      exact ⟨fun cleared => if_pos cleared, fun higher => if_neg (BitVec.not_le.mpr higher)⟩
  case notices =>
    simp only [limitNotices_eq_map_filter, limitNotice_eq]
  case transitions =>
    refine ⟨outputsAfterCommit_of_unmoved outs, fun watches moved => ?_⟩
    rw [outputsAfterCommit_of_moved outs watches moved]
    refine ⟨fun mode => ?_, fun mode => ?_, fun trigger => ?_, fun ignored => ?_⟩
    · rw [outputOnTransition_of_followsLevel _ _ (mode ▸ rfl), levelFor_eq_ite]
      simp [mode]
    · rw [outputOnTransition_of_followsLevel _ _ (mode ▸ rfl), levelFor_eq_ite]
      simp [mode]
    · exact outputOnTransition_of_triggers _ _ ((triggers_iff _ _).mpr trigger)
    · rcases ignored with ⟨mode, state⟩ | ⟨mode, state⟩ <;>
        exact outputOnTransition_of_pulse _ _ (mode ▸ rfl) (by rw [mode, state]; rfl)
  case validity =>
    rw [getElem_outputsWithoutValidity, getElem_outputsWithValidity]
    refine ⟨fun other => ⟨if_neg other, if_neg other⟩, fun watch => ⟨if_pos watch, ?_⟩⟩
    rw [if_pos watch, levelFor_eq_ite]

end Sys2Proof.Machine

namespace Sys2Proof.Machine

open Sys2Proof.Safety

/-! ### What changes the Notice queue by postings alone -/

/-- From `s` to `t` the Notice queue takes postings and loses nothing (R142). -/
def PostsOnly (s t : State) : Prop := ∃ ns, t.notices = postAllTo s.notices ns

theorem PostsOnly.same {s t : State} (same : t.notices = s.notices) : PostsOnly s t := ⟨[], same⟩

theorem PostsOnly.refl (s : State) : PostsOnly s s := .same rfl

theorem PostsOnly.trans {s t u : State} (st : PostsOnly s t) (tu : PostsOnly t u) : PostsOnly s u := by
  obtain ⟨ns, posted⟩ := st
  obtain ⟨more, postedMore⟩ := tu
  exact ⟨ns ++ more, by rw [postedMore, posted, postAllTo_append]⟩

theorem PostsOnly.postChange (s : State) (cause : Cause) (left : StationState) :
    PostsOnly s (s.postChange cause left) := ⟨[_], rfl⟩

section
variable (s : State)

theorem postsOnly_addPending (e : Entry) (amount : Int) : PostsOnly s (s.addPending e amount) := ⟨_, rfl⟩

theorem postsOnly_takeInputEvent (i : Fin 8) : PostsOnly s (s.takeInputEvent i) :=
  State.takeInputEvent_induction (P := PostsOnly s) (fun _ _ posts => posts)
    (fun t e amount posts => posts.trans (postsOnly_addPending t e amount)) (.refl s)

theorem postsOnly_takeSamples (levels : Byte) (order : List (Fin 8)) : PostsOnly s (s.takeSamples levels order) :=
  State.takeSamples_induction levels order s (fun t i posts => posts.trans (postsOnly_takeInputEvent t i)) (.same rfl)

/-- A change to FAULT posts what the return of the Outbox posts, then STATE_CHANGED (R54, R72, R96). -/
theorem postsOnly_enterFault : PostsOnly s s.enterFault := by
  have back : PostsOnly s ((State.postAll { s with outbox := (s.outbox.giveBack s.noticeCs).1 }
      (s.outbox.giveBack s.noticeCs).2).enterStale .fault) := ⟨_, rfl⟩
  exact back.trans (.postChange _ _ _)

theorem postsOnly_takeCollision (position : Nat) : PostsOnly s (s.takeCollision position) := by
  have posted : PostsOnly s (s.post (s.collisionNotice position)) := ⟨[_], rfl⟩
  rcases s.takeCollision_cases position with ⟨-, eq⟩ | ⟨-, eq⟩ <;> rw [eq]
  · exact posted
  · exact posted.trans (postsOnly_enterFault _)

theorem postsOnly_endSlot (result : SlotResult) : PostsOnly s (s.endSlot result) := ⟨_, rfl⟩

theorem postsOnly_sampleSlotBit (ldata : Level) : PostsOnly s (s.sampleSlotBit ldata) := by
  have recorded : PostsOnly s (s.recordBit ldata) := .same rfl
  have compared : PostsOnly s (if s.firstCollision ldata then
      (s.recordBit ldata).takeCollision (s.recordBit ldata).link.bit else s.recordBit ldata) := by
    split
    · exact recorded.trans (postsOnly_takeCollision _ _)
    · exact recorded
  rcases s.sampleSlotBit_cases ldata with eq | ⟨-, result, -, eq⟩ <;> rw [eq]
  · exact compared
  · exact compared.trans (postsOnly_endSlot _ result)

theorem postsOnly_takeRise (ldata : Level) : PostsOnly s (s.takeRise ldata) := by
  rcases s.takeRise_cases ldata with ⟨-, eq⟩ | ⟨-, eq⟩ <;> rw [eq]
  · exact postsOnly_sampleSlotBit { s with link := s.link.takeRise s.settings } ldata
  · exact .same rfl

theorem postsOnly_abortRound (order : List NoticeBlock) : PostsOnly s (s.abortRound order) := ⟨_, rfl⟩

theorem postsOnly_takeOutcome (order : List NoticeBlock) : PostsOnly s (s.takeOutcome order) := ⟨_, rfl⟩

/-- A change of station state at a close posts STATE_CHANGED (R79). -/
theorem postsOnly_changeAtClose (cause : Cause) : PostsOnly s (s.changeAtClose cause) := by
  cases cause with
  | setupCommitted | rejoined | duplicateNumber => exact .refl s
  | caughtUp | founded => exact .trans (.same (by simp)) (.postChange _ _ _)
  | joined | withdrawn | foreignDigest | left => exact .trans (.same rfl) (.postChange _ _ _)

theorem postsOnly_closeRound (order : List NoticeBlock) : PostsOnly s (s.closeRound order) := by
  have taken := postsOnly_takeOutcome s order
  rcases s.closeRound_cases order with ⟨-, eq⟩ | ⟨cause, -, eq⟩ <;> rw [eq]
  · exact taken
  · exact taken.trans (postsOnly_changeAtClose _ cause)

/-! ### The effects of the requests -/

theorem postsOnly_releaseSnapshot : PostsOnly s s.releaseSnapshot.1 := by
  unfold State.releaseSnapshot
  split <;> exact .same rfl

theorem postsOnly_requestFreeze : PostsOnly s s.requestFreeze.1 := by
  rcases s.requestFreeze_cases with ⟨_, eq⟩ | ⟨_, eq⟩ <;> exact .same (by rw [eq])

theorem postsOnly_requestLeave : PostsOnly s s.requestLeave.1 := by
  rcases s.requestLeave_cases with ⟨_, eq⟩ | ⟨_, eq⟩ <;> exact .same (by rw [eq])

theorem postsOnly_requestZero (entry : Byte) : PostsOnly s (s.requestZero entry).1 := by
  rcases s.requestZero_cases entry with ⟨_, eq⟩ | ⟨_, _, _, _, _, _, _, eq⟩ <;> exact .same (by rw [eq])

theorem postsOnly_requestAdjust (entry : Byte) (amount : Half) : PostsOnly s (s.requestAdjust entry amount).1 := by
  rcases s.requestAdjust_cases entry amount with ⟨_, eq⟩ | ⟨e, _, _, _, eq⟩ <;> rw [eq]
  · exact .refl s
  · exact postsOnly_addPending s e _

theorem postsOnly_requestOutput (output level : Byte) : PostsOnly s (s.requestOutput output level).1 := by
  rcases s.requestOutput_cases output level with ⟨_, eq⟩ | ⟨_, _, _, _, _, _, eq⟩ <;> exact .same (by rw [eq])

theorem postsOnly_requestWrite (offset : Half) (length : Byte) (data : List Byte) :
    PostsOnly s (s.requestWrite offset length data).1 := by
  rcases s.requestWrite_cases offset length data with ⟨_, eq⟩ | ⟨_, _, _, _, eq⟩ <;> exact .same (by rw [eq])

/-- Entry to LISTEN from OFF posts STATE_CHANGED (R83). -/
theorem postsOnly_listenFromOff (cause : Cause) (lmark lbeat : Level) :
    PostsOnly s (s.listenFromOff cause lmark lbeat) := .trans (.same rfl) (.postChange _ _ _)

theorem postsOnly_requestRejoin (lmark lbeat : Level) : PostsOnly s (s.requestRejoin lmark lbeat).1 := by
  rcases s.requestRejoin_cases lmark lbeat with eq | ⟨_, eq⟩ <;> rw [eq]
  · exact .refl s
  · exact postsOnly_listenFromOff s _ _ _

theorem postsOnly_requestCommit (lmark lbeat : Level) : PostsOnly s (s.requestCommit lmark lbeat).1 := by
  rcases s.requestCommit_cases lmark lbeat with ⟨_, eq⟩ | ⟨_, _, _, eq⟩ | ⟨_, _, eq⟩ <;> rw [eq]
  · exact .refl s
  · exact .same rfl
  · exact .trans (.same rfl) (postsOnly_listenFromOff _ _ _ _)

/-! ### What a command can do to the Notice queue -/

theorem leads_postsOnly_takeRequest {code : Byte} {operands : List Byte} {effect : State → State × Answer}
    (done : PostsOnly s (effect s).1) : Leads (PostsOnly s) (takeRequest code operands effect s) :=
  leads_takeRequest (.refl s) (fun _ _ posts => posts) done

/-- An event that leads to `t` where it can arise, and else leaves the station as it is. -/
theorem leads_postsOnly_event {c : Prop} [Decidable c] {t : State} (taken : PostsOnly s t) :
    Leads (PostsOnly s) (if c then .next t else .next s) :=
  leads_ite (fun _ => (leads_next _ _).mpr taken) (fun _ => (leads_next _ _).mpr (.refl s))

theorem leads_postsOnly_execUnknown (code : Byte) : Leads (PostsOnly s) (execUnknown code s) := by
  unfold execUnknown
  split
  · exact leads_postsOnly_takeRequest s (.refl s)
  · exact (leads_next _ _).mpr (.refl s)

theorem leads_postsOnly_execSetupWrite (offset : Half) (length : Byte) (data : List Byte) :
    Leads (PostsOnly s) (execSetupWrite offset length data s) :=
  leads_ite (fun _ => leads_postsOnly_takeRequest s (postsOnly_requestWrite s offset length data))
    (fun _ => (leads_next _ _).mpr (.refl s))

theorem leads_postsOnly_execResetEnd (fmt1 fmt0 : Level) : Leads (PostsOnly s) (execResetEnd fmt1 fmt0 s) := by
  unfold execResetEnd
  split <;> exact (leads_next _ _).mpr (.same rfl)

theorem leads_postsOnly_execTselFall (fall : SelectFall) : Leads (PostsOnly s) (execTselFall fall s) := by
  unfold execTselFall
  refine leads_ite (fun _ => ?_) fun _ => leads_ite (fun _ => ?_) fun _ => leads_ite (fun _ => ?_) fun _ => ?_
  all_goals exact (leads_next _ _).mpr (.same rfl)

theorem leads_postsOnly_execTselRise : Leads (PostsOnly s) (execTselRise s) := by
  unfold execTselRise
  refine leads_ite (fun _ => ?_) fun _ => leads_ite (fun _ => ?_) fun _ => ?_
  all_goals exact (leads_next _ _).mpr (.same rfl)

theorem leads_postsOnly_execTclkSamplingEdge (tdi : Level) (elapsed : Nat) :
    Leads (PostsOnly s) (execTclkSamplingEdge tdi elapsed s) := by
  simp only [execTclkSamplingEdge, State.withEdge_eq]
  split
  case h_5 => split <;> exact (leads_next _ _).mpr (.same rfl)
  all_goals exact (leads_next _ _).mpr (.same rfl)

theorem leads_postsOnly_execQuietTimerExpiry : Leads (PostsOnly s) (execQuietTimerExpiry s) := by
  refine leads_ite (fun _ => ?_) (fun _ => (leads_next _ _).mpr (.refl s))
  split <;> exact (leads_next _ _).mpr (.same rfl)

theorem leads_postsOnly_execLbeatHalfPeriodExpiry : Leads (PostsOnly s) (execLbeatHalfPeriodExpiry s) := by
  refine leads_ite (fun _ => ?_) (fun _ => (leads_next _ _).mpr (.refl s))
  split <;> exact (leads_next _ _).mpr (.same rfl)

theorem postsOnly_compose : PostsOnly s s.compose := by
  unfold State.compose
  split <;> exact .same rfl

theorem postsOnly_idle : PostsOnly s s.idle := by
  rcases s.idle_cases with ⟨-, eq⟩ | ⟨-, eq⟩ <;> exact .same (by rw [eq])

/-- Everything that a command can do to the Notice queue: it posts (R142), or a reset empties it (R161), or a record is
delivered (R143). -/
def NoticesMove (s t : State) : Prop :=
  PostsOnly s t ∨ t.notices = [] ∨ ∃ reported, t.notices = deliver s.notices reported

theorem leads_noticesMove_execResetPinFall : Leads (NoticesMove s) (execResetPinFall s) := by
  unfold execResetPinFall
  split <;> rw [leads_next]
  · exact .inr (.inl rfl)
  · exact .inl (.refl s)

theorem leads_noticesMove_execTakeNoticeDelivered : Leads (NoticesMove s) (execTakeNoticeDelivered s) := by
  unfold execTakeNoticeDelivered
  split <;> rw [leads_next]
  · exact .inr (.inr ⟨_, rfl⟩)
  · exact .inl (.refl s)

/-- Only the resets and TAKE_NOTICE_DELIVERED do more to the queue than post. -/
theorem leads_noticesMove_exec (c : Instr) : Leads (NoticesMove s) (exec c s) := by
  have posts : ∀ {outcome}, Leads (PostsOnly s) outcome → Leads (NoticesMove s) outcome := fun only =>
    only.mono fun _ => .inl
  cases c with
  | powerOnReset => exact (leads_next _ _).mpr (.inr (.inl rfl))
  | resetPinFall => exact leads_noticesMove_execResetPinFall s
  | takeNoticeDelivered => exact leads_noticesMove_execTakeNoticeDelivered s
  | resetEnd fmt1 fmt0 => exact posts (leads_postsOnly_execResetEnd s fmt1 fmt0)
  | tselFall fall => exact posts (leads_postsOnly_execTselFall s fall)
  | tselRise => exact posts (leads_postsOnly_execTselRise s)
  | unknown code => exact posts (leads_postsOnly_execUnknown s code)
  | status | readEntry | readOutbox | readRoster | takeNotice | readSnapshot | setupRead =>
    exact posts (leads_postsOnly_takeRequest s (.refl s))
  | releaseSnapshot => exact posts (leads_postsOnly_takeRequest s (postsOnly_releaseSnapshot s))
  | freeze => exact posts (leads_postsOnly_takeRequest s (postsOnly_requestFreeze s))
  | zero entry =>
    exact posts (leads_postsOnly_takeRequest (effect := fun t => t.requestZero entry) s (postsOnly_requestZero s entry))
  | adjust entry amount =>
    exact posts (leads_postsOnly_takeRequest (effect := fun t => t.requestAdjust entry amount) s
      (postsOnly_requestAdjust s entry amount))
  | setOutput output level =>
    exact posts (leads_postsOnly_takeRequest (effect := fun t => t.requestOutput output level) s
      (postsOnly_requestOutput s output level))
  | leave => exact posts (leads_postsOnly_takeRequest s (postsOnly_requestLeave s))
  | rejoin lmark lbeat =>
    exact posts (leads_postsOnly_takeRequest (effect := fun t => t.requestRejoin lmark lbeat) s
      (postsOnly_requestRejoin s lmark lbeat))
  | setupWrite offset length data => exact posts (leads_postsOnly_execSetupWrite s offset length data)
  | setupCommit lmark lbeat =>
    exact posts (leads_postsOnly_takeRequest (effect := fun t => t.requestCommit lmark lbeat) s
      (postsOnly_requestCommit s lmark lbeat))
  | syncLmarkFall | syncLbeatChange | pulseTimerExpiry | lbeatFall =>
    exact posts (leads_postsOnly_event s (.same rfl))
  | quietTimerExpiry => exact posts (leads_postsOnly_execQuietTimerExpiry s)
  | roundTimerExpiry => exact posts (leads_postsOnly_event s (postsOnly_compose s))
  | stallTimerExpiry | passageTimerExpiry => exact posts (leads_postsOnly_event s ⟨[_], rfl⟩)
  | waitLmarkRise => exact posts (leads_postsOnly_event s ⟨_, rfl⟩)
  | lbeatHalfPeriodExpiry => exact posts (leads_postsOnly_execLbeatHalfPeriodExpiry s)
  | ownFrameSent ldata | frameReceived ldata | lbeatRise ldata =>
    exact posts (leads_postsOnly_event s (postsOnly_takeRise s ldata))
  | roundClose ldata order =>
    exact posts (leads_postsOnly_event s ((postsOnly_takeRise s ldata).trans (postsOnly_closeRound _ order)))
  | lmarkFallInRound order | beatStuckExpiry order =>
    exact posts (leads_postsOnly_event s (postsOnly_abortRound s order))
  | sampleInstant levels order => exact posts (leads_postsOnly_event s (postsOnly_takeSamples s levels order))
  | tclkSamplingEdge tdi elapsed => exact posts (leads_postsOnly_execTclkSamplingEdge s tdi elapsed)

end

/-! ### The law of the queue -/

/-- The law of R142 as one of the queue alone. -/
structure NoticeQueueWf (queue : List Notice) : Prop where
  length : queue.length ≤ 16
  newest : ∀ n ∈ queue.dropLast, n.isOverflow = false
  others : (queue.filter fun n => !n.isOverflow).length ≤ 15

theorem noticeQueueWf_iff (queue : List Notice) : NoticeQueueWf queue ↔
    queue.length ≤ 16 ∧ (∀ n ∈ queue.dropLast, n.isOverflow = false) ∧
      (queue.filter fun n => !n.isOverflow).length ≤ 15 :=
  ⟨fun ⟨length, newest, others⟩ => ⟨length, newest, others⟩, fun ⟨length, newest, others⟩ => ⟨length, newest, others⟩⟩

theorem noticesWf_iff_queue (s : State) : NoticesWf s ↔ NoticeQueueWf s.notices := (noticeQueueWf_iff s.notices).symm

theorem noticeQueueWf_nil : NoticeQueueWf [] := ⟨by simp, by simp, by simp⟩

theorem holdsOverflow_eq_false_iff (queue : List Notice) :
    holdsOverflow queue = false ↔ ∀ n ∈ queue, n.isOverflow = false := by
  simp [holdsOverflow]

/-- The law speaks of no more than which records of a queue are OVERFLOW records. -/
theorem noticeQueueWf_iff_map (queue : List Notice) : NoticeQueueWf queue ↔
    (queue.map Notice.isOverflow).length ≤ 16 ∧ (∀ b ∈ (queue.map Notice.isOverflow).dropLast, b = false) ∧
      ((queue.map Notice.isOverflow).filter (!·)).length ≤ 15 := by
  rw [List.length_map, ← List.map_dropLast, List.forall_mem_map, List.filter_map, List.length_map]
  exact noticeQueueWf_iff queue

theorem NoticeQueueWf.congr {queue other : List Notice} (h : NoticeQueueWf queue)
    (same : other.map Notice.isOverflow = queue.map Notice.isOverflow) : NoticeQueueWf other := by
  rw [noticeQueueWf_iff_map, same]
  exact (noticeQueueWf_iff_map queue).mp h

theorem filter_of_plain {queue : List Notice} (plain : ∀ n ∈ queue, n.isOverflow = false) :
    (queue.filter fun n => !n.isOverflow) = queue :=
  List.filter_eq_self.mpr fun n held => by rw [plain n held, Bool.not_false]

/-- Behind a queue without an OVERFLOW record comes any record while at most 14 are held, an OVERFLOW record while at most
15 are. -/
theorem noticeQueueWf_append {queue : List Notice} (plain : ∀ n ∈ queue, n.isOverflow = false) {n : Notice}
    (room : queue.length ≤ 14 ∨ queue.length ≤ 15 ∧ n.isOverflow = true) : NoticeQueueWf (queue ++ [n]) := by
  refine ⟨by rw [List.length_append, List.length_singleton]; omega, by simpa using plain, ?_⟩
  rw [List.filter_append, filter_of_plain plain, List.length_append]
  rcases room with short | ⟨length, overflow⟩
  · have : ([n].filter fun r => !r.isOverflow).length ≤ 1 := List.length_filter_le _ _
    omega
  · simpa [overflow] using length

/-- One posting keeps the law: it counts in the OVERFLOW record held, or joins, or forms one as the 16th (R142). -/
theorem NoticeQueueWf.post {queue : List Notice} (h : NoticeQueueWf queue) (n : Notice) :
    NoticeQueueWf (postTo queue n) := by
  rcases postTo_cases queue n with ⟨-, eq⟩ | ⟨free, room, eq⟩ | ⟨free, -, eq⟩ <;> rw [eq]
  · exact h.congr (map_countLost_isOverflow queue)
  · rw [Config.noticeDepth] at room
    exact noticeQueueWf_append ((holdsOverflow_eq_false_iff queue).mp free) (.inl (by omega))
  · have plain := (holdsOverflow_eq_false_iff queue).mp free
    have others := h.others
    rw [filter_of_plain plain] at others
    exact noticeQueueWf_append plain (.inr ⟨others, rfl⟩)

theorem NoticeQueueWf.tail {n : Notice} {rest : List Notice} (h : NoticeQueueWf (n :: rest)) : NoticeQueueWf rest := by
  obtain ⟨length, newest, others⟩ := h
  refine ⟨Nat.le_of_succ_le length, fun r later => newest r ?_, ?_⟩
  · cases rest with
    | nil => exact nomatch later
    | cons => exact List.mem_cons_of_mem n later
  · exact (((List.sublist_cons_self n rest).filter _).length_le).trans others

/-- A delivery keeps the law: the oldest record leaves, or stays an OVERFLOW record (R143, R144). -/
theorem NoticeQueueWf.deliver {queue : List Notice} (h : NoticeQueueWf queue) (reported : Notice) :
    NoticeQueueWf (deliver queue reported) := by
  cases queue with
  | nil => exact h
  | cons n rest =>
    rcases deliver_cases n rest reported with ⟨eq, -⟩ | ⟨-, -, eq⟩ <;> rw [eq]
    · exact h.tail
    · exact h.congr rfl

theorem noticeQueueWf_of_noticesMove {s t : State} (h : NoticeQueueWf s.notices) (moves : NoticesMove s t) :
    NoticeQueueWf t.notices := by
  rcases moves with ⟨ns, eq⟩ | eq | ⟨reported, eq⟩ <;> rw [eq]
  · exact postAllTo_induction (fun _ n held => held.post n) _ ns h
  · exact noticeQueueWf_nil
  · exact h.deliver reported

/-- Settles O55: a step posts, empties the queue or delivers its oldest record, and each keeps the law. -/
theorem everyStepKeepsNoticeQueue : Obligations.EveryStepKeepsNoticeQueue := by
  unfold Obligations.EveryStepKeepsNoticeQueue
  intro s t h stepped
  have queue : NoticeQueueWf s.notices := (noticesWf_iff_queue s).mp h
  refine (noticesWf_iff_queue t).mpr ?_
  unfold step at stepped
  split at stepped
  · exact noticeQueueWf_of_noticesMove queue (.inl (Host.Outcome.next.inj stepped ▸ postsOnly_idle s))
  · next c rest _ =>
    have moves : NoticesMove { s with pending := rest } t := leads_noticesMove_exec _ c t stepped
    exact noticeQueueWf_of_noticesMove (s := { s with pending := rest }) queue moves

end Sys2Proof.Machine

namespace Sys2Proof.Machine

open Sys2Proof.Safety

/-! ### TAKE_NOTICE -/

/-- The presence flags as the bits of Table 12-6. -/
theorem Notice.flags_eq (n : Notice) : n.flags = BitVec.ofNat 8 ((if n.cs.isSome then 1 else 0) +
    (if n.subject.isSome then 2 else 0) + (if n.value.isSome then 4 else 0)) := by
  unfold Notice.flags
  cases n.cs.isSome <;> cases n.subject.isSome <;> cases n.value.isSome <;> rfl

theorem Notice.bytes_eq (n : Notice) : n.bytes =
    [n.kind.code,
     BitVec.ofNat 8 ((if n.cs.isSome then 1 else 0) + (if n.subject.isSome then 2 else 0) +
       (if n.value.isSome then 4 else 0)),
     (n.cs.getD 0).extractLsb' 8 8, (n.cs.getD 0).extractLsb' 0 8, n.subject.getD 0,
     (n.value.getD 0).extractLsb' 16 8, (n.value.getD 0).extractLsb' 8 8, (n.value.getD 0).extractLsb' 0 8] := by
  rw [← n.flags_eq]
  rfl

section
variable {s : State}

theorem State.noticeAnswer_of_nil (empty : s.notices = []) : s.noticeAnswer = answerOf .empty := by
  rw [State.noticeAnswer, empty]

theorem State.noticeAnswer_of_cons {n : Notice} {rest : List Notice} (held : s.notices = n :: rest) :
    s.noticeAnswer = { quickly .ok n.bytes with delivers := some n } := by
  rw [State.noticeAnswer, held]
  rfl

end

/-! ### The delivery of a notice -/

section
variable {t : Tap} {a : Answer}

/-- At the edge that ends the last byte of an answer, the answer's notice is delivered unless the answer was clocked
early (R143, R159). -/
theorem Tap.deliversNotice_at_last (state : t.state = .answer) (answer : t.answer = some a) (bits : t.bits = 7)
    (last : a.bytes.length = t.sent + 1) : t.deliversNotice = if t.early = false then a.delivers else none := by
  simp [Tap.deliversNotice, state, answer, bits, last]

/-- The edge that ends the last byte of an answer leads to TRAILING, with 00H to follow (R151). -/
theorem Tap.endAnswerByte_at_last (last : a.bytes.length = t.sent + 1) : t.toSamplingEdge.endAnswerByte a =
    { t.toSamplingEdge with
      state := .trailing, shiftIn := 0, shiftOut := 0x00, bits := 0, placed := 0, sent := t.sent + 1
      tdo := if t.fmt0 = .low then .bit .low else t.toSamplingEdge.tdo } := by
  have past : a.byteAt t.early (t.sent + 1) = 0x00 := by simp [Answer.byteAt, last]
  simp only [Tap.endAnswerByte, Tap.toSamplingEdge_sent, Tap.toSamplingEdge_early, past, last, le_refl, if_true,
    Tap.tdoAfterByte_toSamplingEdge]
  rfl

end

section
variable {s : State}

theorem execTakeNoticeDelivered_of_none (none : s.tap.deliversNotice = none) :
    execTakeNoticeDelivered s = .next s := by
  unfold execTakeNoticeDelivered
  rw [none]
  split
  · next h => exact nomatch h
  · rfl

theorem execTakeNoticeDelivered_of_some {a : Answer} {n : Notice} (answer : s.tap.answer = some a)
    (delivers : s.tap.deliversNotice = some n) : execTakeNoticeDelivered s =
      .next { s with notices := deliver s.notices n, tap := s.tap.toSamplingEdge.endAnswerByte a } := by
  unfold execTakeNoticeDelivered
  rw [answer, delivers]

end

theorem deliver_of_plain {oldest : Notice} (plain : oldest.isOverflow = false) (others : List Notice)
    (reported : Notice) : deliver (oldest :: others) reported = others := by
  simp [deliver, plain]

/-- An OVERFLOW record loses the value reported, and leaves when nothing remains of it (R144). -/
theorem deliver_overflowRecord (held reported : Tally) : deliver [overflowRecord held] (overflowRecord reported) =
    if held = reported then [] else [overflowRecord (held - reported)] := rfl

/-- Settles O12: the answer from the oldest record, then its delivery at the last edge of the last byte. -/
theorem takeNoticeDeliversOldest : Obligations.TakeNoticeDeliversOldest := by
  unfold Obligations.TakeNoticeDeliversOldest
  refine ⟨rfl, fun s completes => ?_, fun s a n state answer delivers bits last => ?_⟩
  · have taken : exec .takeNotice s = .next (answered s s 0x05 [] s.noticeAnswer) :=
      takeRequest_answered (reading State.noticeAnswer) completes
    rw [taken]
    refine ⟨fun empty => ?_, fun n rest held => ?_⟩
    · rw [State.noticeAnswer_of_nil empty]
      rfl
    · rw [State.noticeAnswer_of_cons held, n.bytes_eq]
  · have notice := Tap.deliversNotice_at_last state answer bits last
    refine ⟨fun early => ?_, fun onTime => ?_⟩
    · rw [early] at notice
      exact execTakeNoticeDelivered_of_none notice
    · rw [onTime, if_pos rfl, delivers] at notice
      refine ⟨deliver s.notices n, ?_, fun oldest others held plain => ?_, fun held reported only ofReported differs => ?_,
        fun held only ofHeld => ?_⟩
      · rw [← Tap.endAnswerByte_at_last last]
        exact execTakeNoticeDelivered_of_some answer notice
      · rw [held, deliver_of_plain plain]
      · rw [only, ofReported, deliver_overflowRecord, if_neg differs]
      · rw [only, ofHeld, deliver_overflowRecord, if_pos rfl]

end Sys2Proof.Machine

namespace Sys2Proof.Machine

open Sys2Proof.Safety

/-! ### READ_SNAPSHOT -/

/-- The values of a snapshot in its reply, three bytes each (R138, R170). -/
theorem length_flatMap_bytesOfTally (values : List Tally) : (values.flatMap bytesOfTally).length = 3 * values.length := by
  simp [List.length_flatMap, bytesOfTally, Nat.mul_comm]

theorem getElem?_flatMap_bytesOfTally {values : List Tally} {i : Nat} {value : Tally} (at_i : values[i]? = some value) :
    (values.flatMap bytesOfTally)[3 * i]? = some (value.extractLsb' 16 8) ∧
    (values.flatMap bytesOfTally)[3 * i + 1]? = some (value.extractLsb' 8 8) ∧
    (values.flatMap bytesOfTally)[3 * i + 2]? = some (value.extractLsb' 0 8) := by
  induction values generalizing i with
  | nil => exact nomatch at_i
  | cons first rest ih =>
    cases i with
    | zero =>
      obtain rfl : first = value := Option.some.inj at_i
      exact ⟨rfl, rfl, rfl⟩
    | succ j => exact ih at_i

theorem State.snapshotAnswer_refused (s : State) {first count : Byte}
    (bad : 31 < first.toNat ∨ count.toNat = 0 ∨ 32 < count.toNat ∨ 32 < first.toNat + count.toNat) :
    s.snapshotAnswer first count = answerOf .badOperand := if_pos bad

section
variable {s : State} {first count : Byte} (least : 1 ≤ count.toNat) (fits : first.toNat + count.toNat ≤ 32)
include least fits

theorem State.snapshotAnswer_of_nil (empty : s.snapshots = []) : s.snapshotAnswer first count = answerOf .empty := by
  rw [State.snapshotAnswer, if_neg (by omega), empty]

theorem State.snapshotAnswer_of_cons {oldest : Snapshot} {others : List Snapshot} (held : s.snapshots = oldest :: others) :
    s.snapshotAnswer first count =
      answerOk (snapshotReply oldest s.snapshots.length first.toNat count.toNat) := by
  rw [State.snapshotAnswer, if_neg (by omega), held]

end

/-- The part of a snapshot's values that a reply holds, entry by entry (R138). -/
theorem Snapshot.getElem?_part (oldest : Snapshot) {first count i : Nat} {e : Entry} (inside : i < count)
    (names : e.val = first + i) : ((oldest.values.toList.drop first).take count)[i]? = some oldest.values[e] := by
  rw [List.getElem?_take_of_lt inside, List.getElem?_drop, ← names]
  simp

/-- Settles O13: the operands are judged first, then the oldest record is read. -/
theorem readSnapshotReply : Obligations.ReadSnapshotReply := by
  unfold Obligations.ReadSnapshotReply
  intro s first count completes
  have taken : exec (.readSnapshot first count) s =
      .next (answered s s 0x06 [first, count] (s.snapshotAnswer first count)) :=
    takeRequest_answered (reading fun t => t.snapshotAnswer first count) completes
  rw [taken]
  refine ⟨fun bad => ?_, fun least fits => ⟨fun empty => ?_, fun oldest others held => ?_⟩⟩
  · rw [s.snapshotAnswer_refused bad]
    rfl
  · rw [State.snapshotAnswer_of_nil least fits empty]
    rfl
  · rw [State.snapshotAnswer_of_cons least fits held]
    refine ⟨((oldest.values.toList.drop first.toNat).take count.toNat).flatMap bytesOfTally, rfl, ?_,
      fun i e inside names => getElem?_flatMap_bytesOfTally (oldest.getElem?_part inside names)⟩
    rw [length_flatMap_bytesOfTally, List.length_take, List.length_drop, Vector.length_toList]
    omega

/-! ### RELEASE_SNAPSHOT -/

theorem State.releaseSnapshot_of_nil {s : State} (empty : s.snapshots = []) :
    s.releaseSnapshot = (s, answerOf .empty) := by
  rw [State.releaseSnapshot, empty]

theorem State.releaseSnapshot_of_cons {s : State} {oldest : Snapshot} {others : List Snapshot}
    (held : s.snapshots = oldest :: others) : s.releaseSnapshot = ({ s with snapshots := others }, answerOk []) := by
  rw [State.releaseSnapshot, held]

/-- Bit 5 of the status byte is the snapshot-held bit (Table 12-3). -/
theorem State.statusByte_snapshotHeld (s : State) : s.statusByte.getLsbD 5 = decide (s.snapshots ≠ []) := by
  have code : s.member.state.code.getLsbD 5 = false := by cases s.member.state <;> rfl
  have fields : ∀ cause stalled held waiting : Bool, (BitVec.ofNat 8 (128 * cause.toNat + 64 * stalled.toNat +
      32 * held.toNat + 16 * waiting.toNat)).getLsbD 5 = held := by decide
  rw [State.statusByte, BitVec.getLsbD_or, code, fields, Bool.or_false]
  cases s.snapshots <;> rfl

/-- Settles O14: the oldest record leaves, and the status byte tells whether one is left. -/
theorem releaseSnapshotRemovesOldest : Obligations.ReleaseSnapshotRemovesOldest := by
  unfold Obligations.ReleaseSnapshotRemovesOldest
  intro s completes
  have taken : exec .releaseSnapshot s = .next (answered s s.releaseSnapshot.1 0x07 [] s.releaseSnapshot.2) :=
    takeRequest_answered State.releaseSnapshot completes
  rw [taken]
  refine ⟨fun empty => ?_, fun oldest others held => ⟨?_, State.statusByte_snapshotHeld _⟩⟩
  · rw [State.releaseSnapshot_of_nil empty]
    rfl
  · rw [State.releaseSnapshot_of_cons held]
    rfl

end Sys2Proof.Machine

namespace Sys2Proof.Machine

open Sys2Proof.Safety

/-! ### The queue of the commands that wait -/

/-- The outcome is a next state whose queue is the one given. -/
def AnswersWith (queue : List Instr) (outcome : Host.Outcome State Fault Refusal) : Prop :=
  ∃ t, outcome = .next t ∧ t.pending = queue

theorem answersWith_next {queue : List Instr} {t : State} (same : t.pending = queue) : AnswersWith queue (.next t) :=
  ⟨t, rfl, same⟩

theorem answersWith_ite {queue : List Instr} {c : Prop} [Decidable c] {a b : Host.Outcome State Fault Refusal}
    (pos : AnswersWith queue a) (neg : AnswersWith queue b) : AnswersWith queue (if c then a else b) := by
  split
  · exact pos
  · exact neg

section
variable (s : State)

/-- An event that leads to `t` where it can arise, and else leaves the station as it is (entry 4). -/
theorem answersWith_event {c : Prop} [Decidable c] {t : State} (taken : t.pending = s.pending) :
    AnswersWith s.pending (if c then .next t else .next s) :=
  answersWith_ite (answersWith_next taken) (answersWith_next rfl)

theorem answersWith_takeRequest {code : Byte} {operands : List Byte} {effect : State → State × Answer}
    (keeps : ∀ t, (effect t).1.pending = t.pending) :
    AnswersWith s.pending (takeRequest code operands effect s) :=
  answersWith_event s (t := { (effect s).1 with
    tap := s.tap.toSamplingEdge.fixAnswer code operands (effect s).2 }) (keeps s)

/-! ### What the shared operations leave of it -/

@[simp] theorem State.takeInputEvent_pending (i : Fin 8) : (s.takeInputEvent i).pending = s.pending := by
  rw [s.takeInputEvent_frame i]

@[simp] theorem State.takeSamples_pending (levels : Byte) (order : List (Fin 8)) :
    (s.takeSamples levels order).pending = s.pending :=
  State.takeSamples_induction (P := fun t => t.pending = s.pending) levels order s
    (fun t i same => (t.takeInputEvent_pending i).trans same) rfl

@[simp] theorem State.enterFault_pending : s.enterFault.pending = s.pending := rfl

@[simp] theorem State.takeCollision_pending (position : Nat) : (s.takeCollision position).pending = s.pending := by
  rcases s.takeCollision_cases position with ⟨-, eq⟩ | ⟨-, eq⟩ <;> rw [eq] <;> rfl

@[simp] theorem State.sampleSlotBit_pending (ldata : Level) : (s.sampleSlotBit ldata).pending = s.pending := by
  have compared : (if s.firstCollision ldata then (s.recordBit ldata).takeCollision (s.recordBit ldata).link.bit
      else s.recordBit ldata).pending = s.pending := by split <;> simp
  rcases s.sampleSlotBit_cases ldata with eq | ⟨-, result, -, eq⟩ <;> rw [eq]
  · exact compared
  · exact compared

@[simp] theorem State.takeRise_pending (ldata : Level) : (s.takeRise ldata).pending = s.pending := by
  rcases s.takeRise_cases ldata with ⟨-, eq⟩ | ⟨-, eq⟩ <;> rw [eq]
  exact State.sampleSlotBit_pending { s with link := s.link.takeRise s.settings } ldata

@[simp] theorem State.changeAtClose_pending (cause : Cause) : (s.changeAtClose cause).pending = s.pending := by
  cases cause <;> simp [State.changeAtClose]

@[simp] theorem State.closeRound_pending (order : List NoticeBlock) : (s.closeRound order).pending = s.pending := by
  rcases s.closeRound_cases order with ⟨-, eq⟩ | ⟨cause, -, eq⟩ <;> rw [eq]
  · rfl
  · exact (s.takeOutcome order).changeAtClose_pending cause

@[simp] theorem State.compose_pending : s.compose.pending = s.pending := by
  unfold State.compose
  split <;> rfl

/-! ### What the requests leave of it -/

@[simp] theorem State.releaseSnapshot_pending : s.releaseSnapshot.1.pending = s.pending := by
  unfold State.releaseSnapshot
  split <;> rfl

@[simp] theorem State.requestFreeze_pending : s.requestFreeze.1.pending = s.pending := by
  rcases s.requestFreeze_cases with ⟨_, eq⟩ | ⟨_, eq⟩ <;> rw [eq]

@[simp] theorem State.requestLeave_pending : s.requestLeave.1.pending = s.pending := by
  rcases s.requestLeave_cases with ⟨_, eq⟩ | ⟨_, eq⟩ <;> rw [eq]

@[simp] theorem State.requestZero_pending (entry : Byte) : (s.requestZero entry).1.pending = s.pending := by
  rcases s.requestZero_cases entry with ⟨_, eq⟩ | ⟨_, _, _, _, _, _, _, eq⟩ <;> rw [eq]

@[simp] theorem State.requestAdjust_pending (entry : Byte) (amount : Half) :
    (s.requestAdjust entry amount).1.pending = s.pending := by
  rcases s.requestAdjust_cases entry amount with ⟨_, eq⟩ | ⟨_, _, _, _, eq⟩ <;> rw [eq]
  rfl

@[simp] theorem State.requestOutput_pending (output level : Byte) :
    (s.requestOutput output level).1.pending = s.pending := by
  rcases s.requestOutput_cases output level with ⟨_, eq⟩ | ⟨_, _, _, _, _, _, eq⟩ <;> rw [eq]

@[simp] theorem State.requestWrite_pending (offset : Half) (length : Byte) (data : List Byte) :
    (s.requestWrite offset length data).1.pending = s.pending := by
  rcases s.requestWrite_cases offset length data with ⟨_, eq⟩ | ⟨_, _, _, _, eq⟩ <;> rw [eq]

@[simp] theorem State.requestRejoin_pending (lmark lbeat : Level) :
    (s.requestRejoin lmark lbeat).1.pending = s.pending := by
  rcases s.requestRejoin_cases lmark lbeat with eq | ⟨_, eq⟩ <;> rw [eq]
  rfl

@[simp] theorem State.requestCommit_pending (lmark lbeat : Level) :
    (s.requestCommit lmark lbeat).1.pending = s.pending := by
  rcases s.requestCommit_cases lmark lbeat with ⟨_, eq⟩ | ⟨_, _, _, eq⟩ | ⟨_, _, eq⟩ <;> rw [eq]
  rfl

/-! ### What the commands leave of it -/

theorem answersWith_execUnknown (code : Byte) : AnswersWith s.pending (execUnknown code s) := by
  unfold execUnknown
  split
  · exact answersWith_takeRequest s fun _ => rfl
  · exact answersWith_next rfl

theorem answersWith_execSetupWrite (offset : Half) (length : Byte) (data : List Byte) :
    AnswersWith s.pending (execSetupWrite offset length data s) :=
  answersWith_ite (answersWith_takeRequest s fun t => t.requestWrite_pending offset length data) (answersWith_next rfl)

theorem answersWith_execResetPinFall : AnswersWith s.pending (execResetPinFall s) := by
  unfold execResetPinFall
  split <;> exact answersWith_next rfl

theorem answersWith_execResetEnd (fmt1 fmt0 : Level) : AnswersWith s.pending (execResetEnd fmt1 fmt0 s) := by
  unfold execResetEnd
  split <;> exact answersWith_next rfl

theorem answersWith_execTselFall (fall : SelectFall) : AnswersWith s.pending (execTselFall fall s) :=
  answersWith_ite (answersWith_next rfl) (answersWith_ite (answersWith_next rfl)
    (answersWith_ite (answersWith_next rfl) (answersWith_next rfl)))

theorem answersWith_execTselRise : AnswersWith s.pending (execTselRise s) :=
  answersWith_ite (answersWith_next rfl) (answersWith_ite (answersWith_next rfl) (answersWith_next rfl))

theorem answersWith_execTclkSamplingEdge (tdi : Level) (elapsed : Nat) :
    AnswersWith s.pending (execTclkSamplingEdge tdi elapsed s) := by
  simp only [execTclkSamplingEdge, State.withEdge_eq]
  split
  case h_5 => split <;> exact answersWith_next rfl
  all_goals exact answersWith_next rfl

theorem answersWith_execTakeNoticeDelivered : AnswersWith s.pending (execTakeNoticeDelivered s) := by
  unfold execTakeNoticeDelivered
  split <;> exact answersWith_next rfl

theorem answersWith_execQuietTimerExpiry : AnswersWith s.pending (execQuietTimerExpiry s) := by
  refine answersWith_ite ?_ (answersWith_next rfl)
  split <;> exact answersWith_next rfl

theorem answersWith_execLbeatHalfPeriodExpiry : AnswersWith s.pending (execLbeatHalfPeriodExpiry s) := by
  refine answersWith_ite ?_ (answersWith_next rfl)
  split <;> exact answersWith_next rfl

/-- Each command answers a next state with the queue that it found: the parts it is made of leave the queue. -/
theorem answersWith_exec (c : Instr) : AnswersWith s.pending (exec c s) := by
  cases c with
  | powerOnReset => exact answersWith_next rfl
  | resetPinFall => exact answersWith_execResetPinFall s
  | resetEnd fmt1 fmt0 => exact answersWith_execResetEnd s fmt1 fmt0
  | tselFall fall => exact answersWith_execTselFall s fall
  | tselRise => exact answersWith_execTselRise s
  | tclkSamplingEdge tdi elapsed => exact answersWith_execTclkSamplingEdge s tdi elapsed
  | takeNoticeDelivered => exact answersWith_execTakeNoticeDelivered s
  | unknown code => exact answersWith_execUnknown s code
  | status | readEntry | readOutbox | readRoster | takeNotice | readSnapshot | setupRead =>
    exact answersWith_takeRequest s fun _ => rfl
  | releaseSnapshot => exact answersWith_takeRequest s State.releaseSnapshot_pending
  | freeze => exact answersWith_takeRequest s State.requestFreeze_pending
  | leave => exact answersWith_takeRequest s State.requestLeave_pending
  | zero entry => exact answersWith_takeRequest s fun t => t.requestZero_pending entry
  | adjust entry amount => exact answersWith_takeRequest s fun t => t.requestAdjust_pending entry amount
  | setOutput output level => exact answersWith_takeRequest s fun t => t.requestOutput_pending output level
  | rejoin lmark lbeat => exact answersWith_takeRequest s fun t => t.requestRejoin_pending lmark lbeat
  | setupCommit lmark lbeat => exact answersWith_takeRequest s fun t => t.requestCommit_pending lmark lbeat
  | setupWrite offset length data => exact answersWith_execSetupWrite s offset length data
  | syncLmarkFall | syncLbeatChange | stallTimerExpiry | waitLmarkRise | lbeatFall | passageTimerExpiry
  | pulseTimerExpiry | lmarkFallInRound | beatStuckExpiry =>
    exact answersWith_event s rfl
  | quietTimerExpiry => exact answersWith_execQuietTimerExpiry s
  | lbeatHalfPeriodExpiry => exact answersWith_execLbeatHalfPeriodExpiry s
  | roundTimerExpiry => exact answersWith_event s s.compose_pending
  | ownFrameSent ldata | frameReceived ldata | lbeatRise ldata => exact answersWith_event s (s.takeRise_pending ldata)
  | roundClose ldata order =>
    exact answersWith_event s (((s.takeRise ldata).closeRound_pending order).trans (s.takeRise_pending ldata))
  | sampleInstant levels order => exact answersWith_event s (s.takeSamples_pending levels order)

end

/-- Settles O2: command by command, each from what its parts leave of the queue. -/
theorem everyCommandAnswers : Obligations.EveryCommandAnswers := by
  unfold Obligations.EveryCommandAnswers
  exact fun c s => answersWith_exec s c

end Sys2Proof.Machine

namespace Sys2Proof.Machine

open Sys2Proof.Safety

/-! ### One step -/

theorem step_of_nil {s : State} (empty : s.pending = []) : step s = .next s.idle := by
  rw [step, empty]

/-- Settles O1: a command at the front is taken; time without one is `State.idle`. -/
theorem stepTakesFrontCommand : Obligations.StepTakesFrontCommand := by
  unfold Obligations.StepTakesFrontCommand
  refine ⟨fun _ _ _ => rfl, fun s empty => ⟨fun due => ?_, fun notDue => ?_⟩⟩ <;> rw [step_of_nil empty, State.idle]
  · rw [if_pos due]
  · rw [if_neg (by simp [notDue])]

/-! ### The status byte -/

/-- The status byte of Table 12-3 from its five fields. -/
theorem statusFields (pin stalled held waiting : Bool) (state : StationState) :
    let byte := BitVec.ofNat 8 (128 * pin.toNat + 64 * stalled.toNat + 32 * held.toNat + 16 * waiting.toNat) |||
      state.code
    byte.getLsbD 7 = pin ∧ byte.getLsbD 6 = stalled ∧ byte.getLsbD 5 = held ∧ byte.getLsbD 4 = waiting ∧
    byte.getLsbD 3 = false ∧ byte.extractLsb' 0 3 = state.code.setWidth 3 := by
  cases state <;> revert pin stalled held waiting <;> decide

/-- Settles O5: the fields of `statusFields`, and FFH has bit 3 set. -/
theorem statusByteFields : Obligations.StatusByteFields := by
  unfold Obligations.StatusByteFields
  refine ⟨rfl, fun s => ?_⟩
  obtain ⟨pin, stalled, held, waiting, clear, code⟩ := statusFields s.setup.cause.bit s.link.stalled
    (!s.snapshots.isEmpty) (!s.notices.isEmpty) s.member.state
  have cause : s.setup.cause.bit = decide (s.setup.cause = .pin) := by cases s.setup.cause <;> rfl
  have snapshots : (!s.snapshots.isEmpty) = decide (s.snapshots ≠ []) := by cases s.snapshots <;> rfl
  have notices : (!s.notices.isEmpty) = decide (s.notices ≠ []) := by cases s.notices <;> rfl
  refine ⟨pin.trans cause, stalled, held.trans snapshots, waiting.trans notices, waiting, clear, code, fun full => ?_⟩
  have set : s.statusByte.getLsbD 3 = true := by rw [full]; rfl
  exact Bool.false_ne_true (clear.symm.trans set)

/-! ### TSEL -/

/-- A transaction begins with the status byte as R147 and R149 place it. -/
theorem Tap.begin_eq (t : Tap) (status : Byte) (deselect : Nat) (tclk : Level) : t.begin status deselect tclk =
    { t with
      state := .request, tsel := .low, shiftIn := 0, shiftOut := status, bits := 0, code := none
      operands := [], answer := none, sent := 0, early := false, deselect := deselect, tclk := tclk, placed := 0
      tdo := if t.fmt0 = .low then .bit (Level.ofBit (status.getLsbD 7)) else .notPlaced } := by
  simp [Tap.begin, Tap.firstBitAtOnce]

section
variable {s : State}

theorem execTselFall_of_rested {fall : SelectFall} (high : s.tap.tsel = .high) (awake : s.resetting = none)
    (rested : 2000 ≤ s.tap.deselect + fall.elapsed) :
    execTselFall fall s = .next { s with tap := s.tap.begin s.statusByte 2000 fall.tclk } := by
  simp [execTselFall, high, awake, Config.deselectNs, Nat.min_eq_left rested]

theorem execTselFall_of_hasty {fall : SelectFall} (high : s.tap.tsel = .high) (awake : s.resetting = none)
    (hasty : s.tap.deselect + fall.elapsed < 2000) : execTselFall fall s =
      .next { s with tap := { s.tap.idleAt .low (s.tap.deselect + fall.elapsed) with state := .shut } } := by
  simp [execTselFall, high, awake, Config.deselectNs, Nat.min_eq_right hasty.le, hasty]

theorem execTselFall_of_reset {fall : SelectFall} (high : s.tap.tsel = .high) (resets : s.resetting ≠ none) :
    execTselFall fall s = .next { s with tap := { s.tap with tsel := .low } } := by
  simp [execTselFall, high, Option.isSome_iff_ne_none.mpr resets]

theorem execTselRise_of_awake (low : s.tap.tsel = .low) (awake : s.resetting = none) :
    execTselRise s = .next { s with tap := s.tap.idleAt .high 0 } := by
  simp [execTselRise, low, awake]

theorem execTselRise_of_reset (low : s.tap.tsel = .low) (resets : s.resetting ≠ none) :
    execTselRise s = .next { s with tap := { s.tap with tsel := .high } } := by
  simp [execTselRise, low, Option.isSome_iff_ne_none.mpr resets]

end

/-- Settles O6: the fall by the deselect time, the rise, and both during a reset. -/
theorem tselFramesTransactions : Obligations.TselFramesTransactions := by
  unfold Obligations.TselFramesTransactions
  refine ⟨fun s elapsed tclk high => ⟨fun awake rested => ?_, fun awake hasty => execTselFall_of_hasty high awake hasty,
    execTselFall_of_reset high⟩, fun s low => ⟨execTselRise_of_awake low, execTselRise_of_reset low⟩⟩
  rw [← Tap.begin_eq]
  exact execTselFall_of_rested high awake rested

/-! ### The codes of the requests -/

@[simp] theorem requestOf_code (r : Request) : requestOf r.code = some r := by cases r <;> rfl

theorem requestOf_eq_none_iff (code : Byte) : requestOf code = none ↔ code ∉ knownRequestCodes := by
  have codes : knownRequestCodes = allRequests.map Request.code := rfl
  simp [requestOf, codes]

theorem code_of_requestOf {code : Byte} {r : Request} (names : requestOf code = some r) : r.code = code := by
  simpa using List.find?_some names

/-! ### STATUS and READ_ROSTER -/

/-- The station number and N as the replies give them: of the committed record, 0 before a commit (R156, R158). -/
theorem State.settings_header (s : State) :
    BitVec.ofNat 8 s.settings.stationNumber = (if s.setup.committed then s.setup.record.read 0x00 else 0) ∧
    BitVec.ofNat 8 s.settings.clusterSize = (if s.setup.committed then s.setup.record.read 0x01 else 0) := by
  cases committed : s.setup.committed <;> simp [Record.stationNumber, Record.clusterSize, State.settings, committed]

/-- The two bits of a roster mark (Table 12-4). -/
def Mark.bits (mark : Mark) : BitVec 2 := BitVec.ofNat 2 mark.code

theorem Mark.code_lt (mark : Mark) : mark.code < 4 := by cases mark <;> decide

/-- The mark of the lowest slot stands in the top bits of a roster byte (R158). -/
theorem extractLsb'_rosterByte (a b c d : Mark) :
    (rosterByte a b c d).extractLsb' 6 2 = a.bits ∧ (rosterByte a b c d).extractLsb' 4 2 = b.bits ∧
    (rosterByte a b c d).extractLsb' 2 2 = c.bits ∧ (rosterByte a b c d).extractLsb' 0 2 = d.bits := by
  have := a.code_lt
  have := b.code_lt
  have := c.code_lt
  have := d.code_lt
  refine ⟨?_, ?_, ?_, ?_⟩ <;> apply BitVec.eq_of_toNat_eq <;>
    simp only [rosterByte, Mark.bits, BitVec.extractLsb'_toNat, BitVec.toNat_ofNat, Nat.shiftRight_eq_div_pow] <;> omega

/-- Bits of a word of four bytes that lie within one byte. -/
theorem extractLsb'_fourBytes (a b c d : Byte) {start len : Nat} (within : start + len ≤ 8) :
    (a ++ b ++ c ++ d).extractLsb' (start + 24) len = a.extractLsb' start len ∧
    (a ++ b ++ c ++ d).extractLsb' (start + 16) len = b.extractLsb' start len ∧
    (a ++ b ++ c ++ d).extractLsb' (start + 8) len = c.extractLsb' start len ∧
    (a ++ b ++ c ++ d).extractLsb' start len = d.extractLsb' start len := by
  have above : ∀ {w : Nat} (high : BitVec w) (low : Byte) (at_ : Nat),
      (high ++ low).extractLsb' (at_ + 8) len = high.extractLsb' at_ len := fun high low at_ => by
    rw [BitVec.extractLsb'_append_eq_of_le (Nat.le_add_left 8 at_), Nat.add_sub_cancel]
  have below : ∀ {w : Nat} (high : BitVec w) (low : Byte),
      (high ++ low).extractLsb' start len = low.extractLsb' start len := fun _ _ =>
    BitVec.extractLsb'_append_eq_of_add_le within
  refine ⟨?_, ?_, ?_, below _ _⟩
  · rw [above _ _ (start + 16), above _ _ (start + 8), above]
  · rw [above _ _ (start + 8), above, below]
  · rw [above, below]

/-- The roster byte of the four slots from 4q on (R158). -/
def rosterQuarter (r : Vector Mark 16) (q : Fin 4) : Byte :=
  rosterByte r[4 * q.val] r[4 * q.val + 1] r[4 * q.val + 2] r[4 * q.val + 3]

/-- The four roster bytes as one word. -/
def rosterWord (r : Vector Mark 16) : BitVec 32 :=
  rosterQuarter r 0 ++ rosterQuarter r 1 ++ rosterQuarter r 2 ++ rosterQuarter r 3

theorem extractLsb'_rosterQuarter (r : Vector Mark 16) (q k : Fin 4) :
    (rosterQuarter r q).extractLsb' (6 - 2 * k.val) 2 = r[4 * q.val + k.val].bits := by
  obtain ⟨first, second, third, fourth⟩ := extractLsb'_rosterByte r[4 * q.val] r[4 * q.val + 1] r[4 * q.val + 2]
    r[4 * q.val + 3]
  fin_cases k
  exacts [first, second, third, fourth]

theorem extractLsb'_rosterWord (r : Vector Mark 16) (q : Fin 4) {start len : Nat} (within : start + len ≤ 8) :
    (rosterWord r).extractLsb' (start + 8 * (3 - q.val)) len = (rosterQuarter r q).extractLsb' start len := by
  obtain ⟨first, second, third, fourth⟩ := extractLsb'_fourBytes (rosterQuarter r 0) (rosterQuarter r 1)
    (rosterQuarter r 2) (rosterQuarter r 3) within
  fin_cases q
  exacts [first, second, third, fourth]

theorem rosterBytes_eq_rosterWord (r : Vector Mark 16) : rosterBytes r =
    [(rosterWord r).extractLsb' 24 8, (rosterWord r).extractLsb' 16 8, (rosterWord r).extractLsb' 8 8,
      (rosterWord r).extractLsb' 0 8] := by
  have quarter (q : Fin 4) : rosterQuarter r q = (rosterWord r).extractLsb' (8 * (3 - q.val)) 8 := by
    rw [← Nat.zero_add (8 * _), extractLsb'_rosterWord r q (Nat.le_refl 8), BitVec.extractLsb'_eq_self]
  show [rosterQuarter r 0, rosterQuarter r 1, rosterQuarter r 2, rosterQuarter r 3] = _
  rw [quarter 0, quarter 1, quarter 2, quarter 3]
  rfl

theorem rosterWord_mark (r : Vector Mark 16) (slot : Fin 16) :
    (rosterWord r).extractLsb' (30 - 2 * slot.val) 2 = r[slot].bits := by
  have place : 30 - 2 * slot.val = 6 - 2 * (slot.val % 4) + 8 * (3 - slot.val / 4) := by omega
  have quarter := extractLsb'_rosterWord r ⟨slot.val / 4, by omega⟩ (start := 6 - 2 * (slot.val % 4)) (len := 2)
    (by omega)
  have mark := extractLsb'_rosterQuarter r ⟨slot.val / 4, by omega⟩ ⟨slot.val % 4, by omega⟩
  rw [place, quarter, mark]
  simp only [Nat.div_add_mod, Fin.getElem_fin]

theorem rosterFlags_fields (csKnown stale : Bool) : let flags := BitVec.ofNat 8 (csKnown.toNat + 2 * stale.toNat)
    flags.getLsbD 0 = csKnown ∧ flags.getLsbD 1 = stale ∧ flags.extractLsb' 2 6 = 0 := by
  revert csKnown stale
  decide

/-- Settles O10: both replies are read off the station, byte by byte. -/
theorem statusAndRosterReplies : Obligations.StatusAndRosterReplies := by
  unfold Obligations.StatusAndRosterReplies
  refine ⟨fun s completes => ?_, fun s completes => ⟨rosterWord s.member.roster, s.rosterFlags, ?_, fun slot => ?_,
    rosterFlags_fields _ _⟩⟩
  · obtain ⟨station, size⟩ := s.settings_header
    refine (takeRequest_answered (reading fun t => answerOk t.statusReply) completes).trans ?_
    rw [← station, ← size]
    rfl
  · refine (takeRequest_answered (reading fun t => answerOk t.rosterReply) completes).trans ?_
    rw [reading_fst, reading_snd, State.rosterReply, s.settings_header.2, rosterBytes_eq_rosterWord]
    rfl
  · rw [rosterWord_mark]
    cases s.member.roster[slot] <;> rfl

/-! ### Refusals -/

section
variable {s : State}

theorem State.requestWrite_outsideSetup (used : s.member.state ≠ .setup) (offset : Half) (length : Byte)
    (data : List Byte) : s.requestWrite offset length data = (s, answerOf .refused) := if_pos used

theorem State.requestCommit_outsideSetup (used : s.member.state ≠ .setup) (lmark lbeat : Level) :
    s.requestCommit lmark lbeat = (s, commitAnswer .refused) := if_pos used

theorem State.requestOutput_setup (setup : s.member.state = .setup) (output level : Byte) :
    s.requestOutput output level = (s, answerOf .refused) := if_pos setup

theorem State.requestFreeze_outsideMember (aside : s.member.state ≠ .member) :
    s.requestFreeze = (s, answerOf .refused) := if_neg aside

theorem State.requestLeave_outsideMember (aside : s.member.state ≠ .member) :
    s.requestLeave = (s, answerOf .refused) := if_neg aside

theorem State.requestZero_outsideMember (aside : s.member.state ≠ .member) (entry : Byte) :
    s.requestZero entry = (s, answerOf .refused) := if_pos aside

theorem State.requestRejoin_outsideStale (notParked : s.member.state ≠ .parked)
    (notIncompatible : s.member.state ≠ .incompatible) (lmark lbeat : Level) :
    s.requestRejoin lmark lbeat = (s, answerOf .refused) := if_neg (not_or.mpr ⟨notParked, notIncompatible⟩)

/-- A request whose owner answers `a` and changes nothing leaves the tap alone changed. -/
theorem takeRequest_of_unchanged {code : Byte} {operands : List Byte} {effect : State → State × Answer} {a : Answer}
    (completes : s.tap.completes code operands = true) (unchanged : effect s = (s, a)) :
    takeRequest code operands effect s = .next (answered s s code operands a) := by
  rw [takeRequest_answered effect completes, unchanged]

end

/-- Settles O15: each owner refuses by its first condition, and a code that names no request has no owner. -/
theorem refusedAndUnknownRequests : Obligations.RefusedAndUnknownRequests := by
  unfold Obligations.RefusedAndUnknownRequests
  refine ⟨fun s => ⟨fun used => ⟨fun offset length data completes count => ?_, fun lmark lbeat completes => ?_⟩,
    fun setup => ⟨fun entry amount completes => ?_, fun output level completes => ?_⟩,
    fun aside => ⟨fun completes => ?_, fun entry completes => ?_, fun completes => ?_⟩,
    fun notParked notIncompatible lmark lbeat completes => ?_⟩, fun s code unnamed completes => ?_⟩
  · exact (if_pos count).trans
      (takeRequest_of_unchanged completes (State.requestWrite_outsideSetup used offset length data))
  · exact takeRequest_of_unchanged (effect := fun t => t.requestCommit lmark lbeat) completes
      (State.requestCommit_outsideSetup used lmark lbeat)
  · exact takeRequest_of_unchanged (effect := fun t => t.requestAdjust entry amount) completes
      (State.requestAdjust_setup setup)
  · exact takeRequest_of_unchanged (effect := fun t => t.requestOutput output level) completes
      (State.requestOutput_setup setup output level)
  · exact takeRequest_of_unchanged completes (State.requestFreeze_outsideMember aside)
  · exact takeRequest_of_unchanged (effect := fun t => t.requestZero entry) completes
      (State.requestZero_outsideMember aside entry)
  · exact takeRequest_of_unchanged completes (State.requestLeave_outsideMember aside)
  · exact takeRequest_of_unchanged (effect := fun t => t.requestRejoin lmark lbeat) completes
      (State.requestRejoin_outsideStale notParked notIncompatible lmark lbeat)
  · have taken : exec (.unknown code) s = takeRequest code [] (reading fun _ => answerOf .unknown) s := by
      show execUnknown code s = _
      rw [execUnknown, (requestOf_eq_none_iff code).mpr unnamed]
    exact taken.trans (takeRequest_of_unchanged completes rfl)

end Sys2Proof.Machine

namespace Sys2Proof.Machine

open Sys2Proof.Safety

/-! ### The edges of TCLK -/

/-- What a sampling edge that completes no request makes of the tap (R146, R149 to R151). -/
def Tap.afterEdge (t : Tap) (tdi : Level) (elapsed : Nat) : Tap :=
  let edge := t.toSamplingEdge
  match t.state with
  | .idle | .shut => t
  | .request => (if t.bits < 7 then some (edge.takeBit tdi) else edge.endRequestByte tdi).getD t
  | .operands => (if t.bits < 7 then some (edge.takeBit tdi) else edge.endOperandByte tdi).getD t
  | .answer =>
    match t.answer, t.deliversNotice with
    | some a, none => edge.answerEdge a tdi elapsed
    | _, _ => t
  | .trailing => edge.trailingEdge tdi

@[simp] theorem Tap.toSamplingEdge_deliversNotice (t : Tap) : t.toSamplingEdge.deliversNotice = t.deliversNotice := by
  simp [Tap.deliversNotice]

/-- The edge moves nothing but the tap. -/
theorem execTclkSamplingEdge_eq (tdi : Level) (elapsed : Nat) (s : State) :
    execTclkSamplingEdge tdi elapsed s = .next { s with tap := s.tap.afterEdge tdi elapsed } := by
  simp only [execTclkSamplingEdge, Tap.afterEdge, State.withEdge_eq, Tap.toSamplingEdge_state, Tap.toSamplingEdge_bits,
    Tap.toSamplingEdge_answer, Tap.toSamplingEdge_deliversNotice]
  cases s.tap.state
  case answer =>
    cases s.tap.answer <;> cases s.tap.deliversNotice <;> rfl
  all_goals rfl

/-! ### Requests with operand bytes -/

theorem not_mem_of_unknown {code : Byte} (unknown : code ∉ knownRequestCodes) {codes : List Byte}
    (known : codes ⊆ knownRequestCodes) : code ∉ codes := fun listed => unknown (known listed)

/-- Whether a request byte has operand bytes to follow (R149). -/
def hasOperands (code : Byte) : Bool := (requestOf code).any fun r => decide (r.operandCount [] ≠ 0)

theorem hasOperands_iff (code : Byte) : hasOperands code = true ↔
    code ∈ ([0x02, 0x03, 0x06, 0x11, 0x12, 0x13, 0x20, 0x21] : List Byte) := by
  rw [hasOperands]
  cases names : requestOf code with
  | none =>
    exact iff_of_false (by simp) (not_mem_of_unknown ((requestOf_eq_none_iff code).mp names) (by decide))
  | some r =>
    obtain rfl := code_of_requestOf names
    cases r <;> decide

/-- The operand bytes of a request are those of Table 10-5. -/
theorem Request.operandCount_eq_operandBytes (r : Request) (operands : List Byte) :
    r.operandCount operands = operandBytes r.code operands := by
  cases r
  case setupWrite =>
    match operands with
    | [] | [_] | [_, _] => rfl
    | _ :: _ :: length :: _ =>
      show 3 + dataBytes length = if length.toNat ≤ 32 then 3 + length.toNat else 3
      unfold dataBytes
      split <;> split <;> omega
  all_goals rfl

theorem operandBytes_of_unknown {code : Byte} (unknown : code ∉ knownRequestCodes) (operands : List Byte) :
    operandBytes code operands = 0 := by
  have setupWrite : code ≠ 0x20 := fun eq => unknown (by rw [eq]; decide)
  rw [operandBytes, if_neg (not_mem_of_unknown unknown (by decide)), if_neg (not_mem_of_unknown unknown (by decide)),
    if_neg (not_mem_of_unknown unknown (by decide)), if_neg setupWrite]

/-- A code that names no request has no operand bytes to wait for. -/
theorem operandsComplete_iff (code : Byte) (operands : List Byte) :
    operandsComplete (some code) operands = true ↔ operandBytes code operands ≤ operands.length := by
  show (match requestOf code with
    | some r => decide (r.operandCount operands ≤ operands.length)
    | none => true) = true ↔ _
  cases names : requestOf code with
  | none =>
    simp [operandBytes_of_unknown ((requestOf_eq_none_iff code).mp names)]
  | some r =>
    rw [← code_of_requestOf names, ← r.operandCount_eq_operandBytes]
    exact decide_eq_true_iff

section
variable {t : Tap} {tdi : Level} {elapsed : Nat}

theorem Tap.shiftEdge_eq (t : Tap) : t.shiftEdge = { t with
    tclk := if t.fmt1 = t.fmt0 then .low else .high, placed := t.placed + 1
    tdo := .bit (Level.ofBit (t.shiftOut.getLsbD (7 - if t.fmt0 = .low then t.bits else t.placed))) } := by
  have level : t.sampledAt.flip = if t.fmt1 = t.fmt0 then .low else .high := by
    rw [t.sampledAt_eq]
    split <;> rfl
  rw [Tap.shiftEdge, level, Tap.nextBit]
  simp [Tap.firstBitAtOnce]

theorem Tap.shiftDue_iff (t : Tap) : t.shiftDue = true ↔
    (t.state = .request ∨ t.state = .operands ∨ t.state = .answer ∨ t.state = .trailing) ∧ t.tclk = t.sampledAt := by
  rw [← t.running_iff, Tap.shiftDue, Bool.and_eq_true, decide_eq_true_eq]

theorem Tap.toSamplingEdge_of_due (due : t.shiftDue = true) :
    t.toSamplingEdge = { t.shiftEdge with tclk := t.sampledAt } := by
  rw [Tap.toSamplingEdge, if_pos due]

theorem Tap.toSamplingEdge_of_notDue (notDue : t.shiftDue = false) :
    t.toSamplingEdge = { t with tclk := t.sampledAt } := by
  rw [Tap.toSamplingEdge, if_neg (by simp [notDue])]

/-- What the tap is at the end of a byte, with the next byte in the register that is shifted out (R146, entry 31). -/
def Tap.endByte (t : Tap) (next : Byte) : Tap := { t.toSamplingEdge with
  shiftIn := 0, shiftOut := next, bits := 0, placed := 0
  tdo := if t.fmt0 = .low then .bit (Level.ofBit (next.getLsbD 7)) else t.toSamplingEdge.tdo }

/-- Outside a transaction the edge has no effect. -/
theorem Tap.afterEdge_of_outside (outside : t.state = .idle ∨ t.state = .shut) : t.afterEdge tdi elapsed = t := by
  rcases outside with state | state <;> simp only [Tap.afterEdge, state]

/-- Within a byte the edge takes one bit. -/
theorem Tap.afterEdge_of_within (state : t.state = .request ∨ t.state = .operands ∨ t.state = .trailing)
    (within : t.bits < 7) : t.afterEdge tdi elapsed = t.toSamplingEdge.takeBit tdi := by
  rcases state with state | state | state <;>
    simp [Tap.afterEdge, Tap.trailingEdge, state, within]

theorem Tap.afterEdge_of_answer {a : Answer} (state : t.state = .answer) (answer : t.answer = some a) :
    t.afterEdge tdi elapsed =
      if t.deliversNotice = none then t.toSamplingEdge.answerEdge a tdi elapsed else t := by
  simp only [Tap.afterEdge, state, answer]
  cases t.deliversNotice <;> rfl

/-- Within an answer byte the edge takes one bit too, early clocking being judged before it (R159). -/
theorem Tap.afterEdge_of_withinAnswer {a : Answer} (state : t.state = .answer) (answer : t.answer = some a)
    (within : t.bits < 7) : t.afterEdge tdi elapsed = (t.toSamplingEdge.markEarly a elapsed).takeBit tdi := by
  have notLast : t.deliversNotice = none := by
    rw [Tap.deliversNotice, state, answer]
    exact if_neg fun last => absurd last.1 (by omega)
  have bits : (t.toSamplingEdge.markEarly a elapsed).bits = t.bits := by
    rw [Tap.markEarly]
    split <;> simp
  rw [Tap.afterEdge_of_answer state answer, if_pos notLast, Tap.answerEdge, if_pos (by omega)]

/-- At the end of a request byte OPERANDS is entered, unless the edge is that of a request or of no request at all. -/
theorem Tap.afterEdge_of_requestEnd (state : t.state = .request) (last : 7 ≤ t.bits) : t.afterEdge tdi elapsed =
    if hasOperands (shiftBit t.shiftIn tdi) then
      { t.endByte 0x00 with state := .operands, code := some (shiftBit t.shiftIn tdi), operands := [] }
    else t := by
  simp only [Tap.afterEdge, state, if_neg (Nat.not_lt.mpr last), Tap.endRequestByte, Tap.toSamplingEdge_shiftIn]
  rw [hasOperands]
  cases requestOf (shiftBit t.shiftIn tdi) with
  | none => rfl
  | some r =>
    by_cases bare : r.operandCount [] = 0
    · simp [bare]
    · simp only [Tap.tdoAfterByte_toSamplingEdge]
      simp [bare, Tap.endByte]

/-- At the end of an operand byte the byte is stored, unless it is the last of the request (R150). -/
theorem Tap.afterEdge_of_operandEnd (state : t.state = .operands) (last : 7 ≤ t.bits) : t.afterEdge tdi elapsed =
    if operandsComplete t.code (t.operands ++ [shiftBit t.shiftIn tdi]) then t
    else { t.endByte 0x00 with operands := t.operands ++ [shiftBit t.shiftIn tdi] } := by
  simp only [Tap.afterEdge, state, if_neg (Nat.not_lt.mpr last), Tap.endOperandByte, Tap.toSamplingEdge_shiftIn,
    Tap.toSamplingEdge_code, Tap.toSamplingEdge_operands, Tap.tdoAfterByte_toSamplingEdge]
  split
  · rfl
  · simp [Tap.endByte, state]

/-- At the end of an answer byte the next one follows, or 00H, unless the edge delivers a notice (R143, R151). -/
theorem Tap.afterEdge_of_answerEnd {a : Answer} (state : t.state = .answer) (answer : t.answer = some a)
    (last : t.bits = 7) : t.afterEdge tdi elapsed =
      if a.delivers ≠ none ∧ t.early = false ∧ a.bytes.length ≤ t.sent + 1 then t
      else { t.endByte (a.byteAt t.early (t.sent + 1)) with
        state := if a.bytes.length ≤ t.sent + 1 then .trailing else .answer, sent := t.sent + 1 } := by
  have judged : t.toSamplingEdge.markEarly a elapsed = t.toSamplingEdge := if_neg (by simp [last])
  have ended : t.toSamplingEdge.answerEdge a tdi elapsed = { t.endByte (a.byteAt t.early (t.sent + 1)) with
      state := if a.bytes.length ≤ t.sent + 1 then .trailing else .answer, sent := t.sent + 1 } := by
    simp only [Tap.answerEdge, judged, Tap.toSamplingEdge_bits, last, Nat.lt_irrefl, if_false, Tap.endAnswerByte,
      Tap.toSamplingEdge_sent, Tap.toSamplingEdge_early, Tap.tdoAfterByte_toSamplingEdge]
    simp [Tap.endByte]
  have delivers : t.deliversNotice ≠ none ↔ a.delivers ≠ none ∧ t.early = false ∧ a.bytes.length ≤ t.sent + 1 := by
    have notice : t.deliversNotice = if t.early = false ∧ a.bytes.length ≤ t.sent + 1 then a.delivers else none := by
      simp [Tap.deliversNotice, state, answer, last]
    rw [notice, ne_eq, ite_eq_right_iff, Classical.not_imp, and_comm]
  rw [Tap.afterEdge_of_answer state answer, ended, ← ite_not]
  exact if_congr delivers rfl rfl

/-- At the end of a byte in TRAILING 00H stays in the register that is shifted out (R151). -/
theorem Tap.afterEdge_of_trailingEnd (state : t.state = .trailing) (last : 7 ≤ t.bits) :
    t.afterEdge tdi elapsed = { t.endByte 0x00 with shiftOut := t.shiftOut } := by
  simp only [Tap.afterEdge, state, Tap.trailingEdge, Tap.toSamplingEdge_bits, if_neg (Nat.not_lt.mpr last),
    Tap.tdoAfterByte_toSamplingEdge]
  simp [Tap.endByte]

end

/-- The tap moved in one branch alone. -/
theorem State.tap_ite_then (s : State) (c : Prop) [Decidable c] (t : Tap) :
    ({ s with tap := if c then t else s.tap } : State) = if c then { s with tap := t } else s := by
  split <;> rfl

theorem State.tap_ite_else (s : State) (c : Prop) [Decidable c] (t : Tap) :
    ({ s with tap := if c then s.tap else t } : State) = if c then s else { s with tap := t } := by
  split <;> rfl

/-- Settles O7: the edges one by one, each by the equation of its tap state. -/
theorem samplingEdgeTakesOneBit : Obligations.SamplingEdgeTakesOneBit := by
  unfold Obligations.SamplingEdgeTakesOneBit
  refine ⟨fun t => ?_, fun s tdi elapsed => ?_⟩
  · intro sampled
    have level : sampled = t.sampledAt := t.sampledAt_eq.symm
    rw [level]
    exact ⟨t.shiftDue_iff, t.shiftEdge_eq, Tap.toSamplingEdge_of_due, Tap.toSamplingEdge_of_notDue⟩
  · intro edge byte taken ended
    have moved : exec (.tclkSamplingEdge tdi elapsed) s = .next { s with tap := s.tap.afterEdge tdi elapsed } :=
      execTclkSamplingEdge_eq tdi elapsed s
    have took : edge.takeBit tdi = taken := by simp [Tap.takeBit, taken, edge, byte, shiftBit]
    rw [moved]
    refine ⟨fun outside => ?_, fun state within => ?_,
      fun a state answer within => ⟨fun onTime => ?_, fun first bare early => ?_⟩,
      fun state last => ?_, fun code state named last => ?_, fun a state answer last => ?_, fun state last => ?_⟩
    · rw [Tap.afterEdge_of_outside outside]
    · rw [Tap.afterEdge_of_within state within, took]
    · have judged : edge.markEarly a elapsed = edge := if_neg (by simp [edge]; omega)
      rw [Tap.afterEdge_of_withinAnswer state answer within, judged, took]
    · have judged : edge.markEarly a elapsed = { edge with early := true, shiftOut := 0xFF } :=
        if_pos (by simp [edge, first, bare, early])
      rw [Tap.afterEdge_of_withinAnswer state answer within, judged, ← took]
      rfl
    · rw [Tap.afterEdge_of_requestEnd state last]
      exact congrArg Host.Outcome.next ((s.tap_ite_then _ _).trans
        (if_congr (hasOperands_iff byte) rfl rfl))
    · intro operands
      rw [Tap.afterEdge_of_operandEnd state last, named]
      exact congrArg Host.Outcome.next ((s.tap_ite_else _ _).trans
        (if_congr (operandsComplete_iff code operands) rfl rfl))
    · rw [Tap.afterEdge_of_answerEnd state answer last]
      exact congrArg Host.Outcome.next (s.tap_ite_else _ _)
    · rw [Tap.afterEdge_of_trailingEnd state last]
      rfl

end Sys2Proof.Machine

namespace Sys2Proof.Machine

open Sys2Proof.Safety

/-! ### Runs of sampling edges -/

/-- The tap after sampling edges that clock bits in, as `clocked` gives them. -/
def Tap.clock : Tap → List Bool → (Nat → Nat) → Tap
  | t, [], _ => t
  | t, bit :: bits, elapsed => (t.afterEdge (Level.ofBit bit) (elapsed 0)).clock bits fun i => elapsed (i + 1)

theorem clocked_cons (bit : Bool) (bits : List Bool) (elapsed : Nat → Nat) : clocked (bit :: bits) elapsed =
    .tclkSamplingEdge (Level.ofBit bit) (elapsed 0) :: clocked bits fun i => elapsed (i + 1) := by
  simp [clocked, List.zipIdx_cons, List.zipIdx_succ, Function.comp_def]

theorem run_succ_of_step {M : Host.Core} {s t : M.State} (n : Nat) (first : M.step s = .next t) :
    M.run (n + 1) s = M.run n t := by
  rw [Host.Core.run, first]

theorem reaches_succ {n : Nat} {s t u : State} (first : step s = .next t) (further : reaches n t u) :
    reaches (n + 1) s u := (run_succ_of_step (M := core) n first).trans further

/-- A run of sampling edges moves nothing but the tap and the queue. -/
theorem reaches_clocked (s : State) (bits : List Bool) (elapsed : Nat → Nat) (rest : List Instr) :
    reaches bits.length { s with pending := clocked bits elapsed ++ rest }
      (tapAt s rest (s.tap.clock bits elapsed)) := by
  induction bits generalizing s elapsed with
  | nil => rfl
  | cons bit bits ih =>
    have edge : step { s with pending := clocked (bit :: bits) elapsed ++ rest } =
        .next { s with
          pending := clocked bits (fun i => elapsed (i + 1)) ++ rest
          tap := s.tap.afterEdge (Level.ofBit bit) (elapsed 0) } := by
      rw [clocked_cons]
      exact execTclkSamplingEdge_eq _ _ _
    exact reaches_succ edge (ih { s with tap := s.tap.afterEdge (Level.ofBit bit) (elapsed 0) } _)

theorem Tap.clock_append (t : Tap) (bits more : List Bool) (elapsed : Nat → Nat) :
    t.clock (bits ++ more) elapsed = (t.clock bits elapsed).clock more fun i => elapsed (i + bits.length) := by
  induction bits generalizing t elapsed with
  | nil => rfl
  | cons bit bits ih =>
    refine (ih _ _).trans (congrArg _ (funext fun i => congrArg elapsed ?_))
    rw [List.length_cons, Nat.add_assoc]

theorem Tap.clock_concat (t : Tap) (bits : List Bool) (bit : Bool) (elapsed : Nat → Nat) :
    t.clock (bits ++ [bit]) elapsed = (t.clock bits elapsed).afterEdge (Level.ofBit bit) (elapsed bits.length) := by
  rw [t.clock_append, Tap.clock, Tap.clock, Nat.zero_add]

/-! ### The register of TDI -/

theorem getLsbD_shiftBit (register : Byte) (level : Level) {i : Nat} (inside : i < 8) :
    (shiftBit register level).getLsbD i = if i = 0 then level.bit else register.getLsbD (i - 1) := by
  cases i with
  | zero => simp [shiftBit]
  | succ i => simp [shiftBit, inside, BitVec.getLsbD_eq_getElem (Nat.lt_of_succ_lt inside)]

/-- The register after bits taken one by one (R146). -/
def shiftAll (register : Byte) (bits : List Bool) : Byte := bits.foldl (fun r b => shiftBit r (Level.ofBit b)) register

theorem shiftAll_concat (register : Byte) (bits : List Bool) (bit : Bool) :
    shiftAll register (bits ++ [bit]) = shiftBit (shiftAll register bits) (Level.ofBit bit) := by
  simp [shiftAll]

/-- The bits taken stand at the low end, the last one lowest. -/
theorem getLsbD_shiftAll (register : Byte) (bits : List Bool) {i : Nat} (inside : i < 8) :
    (shiftAll register bits).getLsbD i = bits.reverse[i]?.getD (register.getLsbD (i - bits.length)) := by
  induction bits using List.reverseRecOn generalizing i with
  | nil => rfl
  | append_singleton bits bit ih =>
    rw [shiftAll_concat, getLsbD_shiftBit _ _ inside]
    cases i with
    | zero => simp
    | succ i => simp [ih (Nat.lt_of_succ_lt inside)]

theorem getElem?_bitsOf (x : Byte) {i : Nat} (inside : i < 8) : (bitsOf x)[i]? = some (x.getLsbD (7 - i)) := by
  rw [bitsOf_eq_getLsbD]
  simp [inside]

/-- Eight bits fill the register (R146). -/
theorem shiftAll_bitsOf (register x : Byte) : shiftAll register (bitsOf x) = x := by
  refine BitVec.eq_of_getLsbD_eq fun i inside => ?_
  rw [getLsbD_shiftAll _ _ inside, List.getElem?_reverse (by simpa using inside), bitsOf_length,
    getElem?_bitsOf x (by omega)]
  exact congrArg x.getLsbD (by omega)

theorem bitsOf_eq_concat (x : Byte) : bitsOf x = (bitsOf x).dropLast ++ [x.getLsbD 0] := rfl

theorem extractLsb'_shiftBit (register : Byte) (level : Level) :
    (shiftBit register level).extractLsb' 1 7 = register.setWidth 7 := by
  refine BitVec.eq_of_getLsbD_eq fun i inside => ?_
  rw [BitVec.getLsbD_extractLsb', getLsbD_shiftBit _ _ (by omega)]
  simp [inside]

/-! ### The bytes of a request -/

/-- `u` is `t` with bits taken within a byte, as far as a request depends on it. -/
structure Tap.Taken (t : Tap) (took : List Bool) (u : Tap) : Prop where
  state : u.state = t.state
  code : u.code = t.code
  operands : u.operands = t.operands
  bits : u.bits = t.bits + took.length
  shiftIn : u.shiftIn = shiftAll t.shiftIn took

section
variable {t : Tap}

theorem Tap.taken_clock (state : t.state = .request ∨ t.state = .operands) {bits : List Bool} (elapsed : Nat → Nat)
    (within : t.bits + bits.length ≤ 7) : t.Taken bits (t.clock bits elapsed) := by
  induction bits using List.reverseRecOn with
  | nil => exact ⟨rfl, rfl, rfl, rfl, rfl⟩
  | append_singleton bits bit ih =>
    rw [List.length_append, List.length_singleton] at within
    have before := ih (by omega)
    have edge : (t.clock bits elapsed).afterEdge (Level.ofBit bit) (elapsed bits.length) =
        (t.clock bits elapsed).toSamplingEdge.takeBit (Level.ofBit bit) :=
      Tap.afterEdge_of_within (by rw [before.state]; tauto) (by rw [before.bits]; omega)
    rw [t.clock_concat, edge]
    refine ⟨?_, ?_, ?_, ?_, ?_⟩
    · simp [Tap.takeBit, before.state]
    · simp [Tap.takeBit, before.code]
    · simp [Tap.takeBit, before.operands]
    · simp [Tap.takeBit, before.bits, Nat.add_assoc]
    · simp [Tap.takeBit, before.shiftIn, shiftAll_concat]

/-- One edge before the end of a byte its seven first bits have been taken, and the last one completes it. -/
theorem Tap.taken_firstBits (state : t.state = .request ∨ t.state = .operands) (start : t.bits = 0) (x : Byte)
    (elapsed : Nat → Nat) : t.Taken (bitsOf x).dropLast (t.clock (bitsOf x).dropLast elapsed) ∧
      (t.clock (bitsOf x).dropLast elapsed).bits = 7 ∧
      shiftBit (t.clock (bitsOf x).dropLast elapsed).shiftIn (Level.ofBit (x.getLsbD 0)) = x := by
  have length : (bitsOf x).dropLast.length = 7 := by simp
  have taken := Tap.taken_clock state elapsed (bits := (bitsOf x).dropLast) (by omega)
  refine ⟨taken, by rw [taken.bits]; omega, ?_⟩
  rw [taken.shiftIn, ← shiftAll_concat, ← bitsOf_eq_concat, shiftAll_bitsOf]

theorem Tap.completesByte_firstBits (state : t.state = .request ∨ t.state = .operands) (start : t.bits = 0) (x : Byte)
    (elapsed : Nat → Nat) : (t.clock (bitsOf x).dropLast elapsed).completesByte x = true := by
  obtain ⟨-, bits, byte⟩ := Tap.taken_firstBits state start x elapsed
  have seven := extractLsb'_shiftBit (t.clock (bitsOf x).dropLast elapsed).shiftIn (Level.ofBit (x.getLsbD 0))
  rw [byte] at seven
  simp [Tap.completesByte, bits, seven]

/-- A request byte taken to its seventh bit stands one edge before a request without operand bytes. -/
theorem Tap.completes_code (state : t.state = .request) (start : t.bits = 0) (code : Byte) (elapsed : Nat → Nat) :
    (t.clock (bitsOf code).dropLast elapsed).completes code [] = true := by
  obtain ⟨taken, -, -⟩ := Tap.taken_firstBits (.inl state) start code elapsed
  simp [Tap.completes, taken.state, state, Tap.completesByte_firstBits (.inl state) start code elapsed]

/-- The tap in OPERANDS with no bit of the next operand byte taken. -/
structure Tap.AwaitsOperand (t : Tap) (code : Byte) (taken : List Byte) : Prop where
  state : t.state = .operands
  bits : t.bits = 0
  code : t.code = some code
  operands : t.operands = taken

theorem Tap.awaitsOperand_of_code (state : t.state = .request) (start : t.bits = 0) {code : Byte}
    (more : hasOperands code = true) (elapsed : Nat → Nat) : (t.clock (bitsOf code) elapsed).AwaitsOperand code [] := by
  obtain ⟨taken, bits, byte⟩ := Tap.taken_firstBits (.inl state) start code elapsed
  rw [bitsOf_eq_concat code, t.clock_concat, Tap.afterEdge_of_requestEnd (taken.state.trans state) bits.ge, byte,
    if_pos more]
  exact ⟨rfl, rfl, rfl, rfl⟩

theorem Tap.AwaitsOperand.byte {code : Byte} {operands : List Byte} (awaits : t.AwaitsOperand code operands) (x : Byte)
    (more : operandsComplete (some code) (operands ++ [x]) = false) (elapsed : Nat → Nat) :
    (t.clock (bitsOf x) elapsed).AwaitsOperand code (operands ++ [x]) := by
  obtain ⟨taken, bits, byte⟩ := Tap.taken_firstBits (.inr awaits.state) awaits.bits x elapsed
  rw [bitsOf_eq_concat x, t.clock_concat, Tap.afterEdge_of_operandEnd (taken.state.trans awaits.state) bits.ge, byte,
    taken.code, taken.operands, awaits.code, awaits.operands, if_neg (by simp [more])]
  refine ⟨?_, rfl, ?_, rfl⟩
  · simp [Tap.endByte, taken.state, awaits.state]
  · simp [Tap.endByte, taken.code, awaits.code]

theorem Tap.AwaitsOperand.completes {code : Byte} {operands : List Byte} (awaits : t.AwaitsOperand code operands)
    (x : Byte) (elapsed : Nat → Nat) :
    (t.clock (bitsOf x).dropLast elapsed).completes code (operands ++ [x]) = true := by
  obtain ⟨taken, -, -⟩ := Tap.taken_firstBits (.inr awaits.state) awaits.bits x elapsed
  simp [Tap.completes, taken.state, taken.code, taken.operands, awaits.state, awaits.code, awaits.operands,
    Tap.completesByte_firstBits (.inr awaits.state) awaits.bits x elapsed]

end

/-- A request that has all its operand bytes had not all of them before (R150). -/
theorem Request.length_lt_operandCount {r : Request} {taken left : List Byte} (more : left ≠ [])
    (full : r.operandCount (taken ++ left) = (taken ++ left).length) : taken.length < r.operandCount taken := by
  have shorter : taken.length < (taken ++ left).length := by
    rw [List.length_append]
    exact Nat.lt_add_of_pos_right (List.length_pos_iff.mpr more)
  cases r
  case setupWrite =>
    match taken with
    | [] | [_] | [_, _] => simp [Request.operandCount]
    | _ :: _ :: length :: _ => exact full ▸ shorter
  all_goals exact full ▸ shorter

theorem dropLast_flatMap_cons (x : Byte) {bytes : List Byte} (more : bytes ≠ []) :
    ((x :: bytes).flatMap bitsOf).dropLast = bitsOf x ++ (bytes.flatMap bitsOf).dropLast := by
  obtain ⟨y, rest, rfl⟩ := List.exists_cons_of_ne_nil more
  refine List.dropLast_append_of_ne_nil fun empty => ?_
  simpa [bitsOf] using congrArg List.length empty

/-- Operand bytes clocked in up to the last bit of the last one, byte by byte. -/
theorem Tap.AwaitsOperand.completes_operands {r : Request} {operands : List Byte}
    (full : r.operandCount operands = operands.length) (left : List Byte) (more : left ≠ []) {t : Tap}
    {taken : List Byte} (awaits : t.AwaitsOperand r.code taken) (split : taken ++ left = operands)
    (elapsed : Nat → Nat) : (t.clock (left.flatMap bitsOf).dropLast elapsed).completes r.code operands = true := by
  induction left generalizing t taken elapsed with
  | nil => exact absurd rfl more
  | cons x left ih =>
    by_cases last : left = []
    · subst last split
      rw [List.flatMap_singleton]
      exact awaits.completes x elapsed
    · have split' : taken ++ [x] ++ left = operands := by simpa using split
      have open_ : operandsComplete (some r.code) (taken ++ [x]) = false := by
        have short := Request.length_lt_operandCount last (split' ▸ full)
        simpa [operandsComplete] using short
      rw [dropLast_flatMap_cons x last, t.clock_append]
      exact ih last (awaits.byte x open_ _) split' _

/-- A request clocked in up to its last bit stands one edge before its effect (R149, R150). -/
theorem Tap.completes_request {t : Tap} (state : t.state = .request) (start : t.bits = 0) {r : Request}
    {operands : List Byte} (full : r.operandCount operands = operands.length) (elapsed : Nat → Nat) :
    (t.clock ((r.code :: operands).flatMap bitsOf).dropLast elapsed).completes r.code operands = true := by
  by_cases bare : operands = []
  · subst bare
    rw [List.flatMap_singleton]
    exact Tap.completes_code state start r.code elapsed
  · have more : hasOperands r.code = true := by
      have least : 0 < r.operandCount [] := Request.length_lt_operandCount (taken := []) bare full
      simpa [hasOperands] using least.ne'
    rw [dropLast_flatMap_cons r.code bare, t.clock_append]
    exact (Tap.awaitsOperand_of_code state start more elapsed).completes_operands full operands bare rfl _

/-- Settles O8: the run is `Tap.clock`, and the tap takes byte after byte. -/
theorem clockedBytesReachRequest : Obligations.ClockedBytesReachRequest := by
  unfold Obligations.ClockedBytesReachRequest
  refine ⟨requestOf_eq_none_iff, Request.operandCount_eq_operandBytes, fun _ => rfl,
    fun s elapsed rest state start => ⟨fun r operands full => ?_, fun code unnamed => ?_⟩⟩
  · have length : 8 * operands.length + 7 = ((r.code :: operands).flatMap bitsOf).dropLast.length := by
      rw [List.length_dropLast, length_flatMap_of_width bitsOf_length, List.length_cons]
      omega
    refine ⟨_, ?_, Tap.completes_request state start full elapsed⟩
    rw [length]
    exact reaches_clocked s _ elapsed rest
  · exact ⟨_, reaches_clocked s (bitsOf code).dropLast elapsed rest, Tap.completes_code state start code elapsed⟩

end Sys2Proof.Machine

namespace Sys2Proof.Machine

open Sys2Proof.Safety

/-! ### The bytes of an answer -/

theorem Answer.bytes_eq (a : Answer) : a.bytes = a.result.code :: if a.result = .ok then a.reply else [] := by
  rw [Answer.bytes]
  cases a.result <;> rfl

theorem Answer.length_bytes_pos (a : Answer) : 0 < a.bytes.length := Nat.succ_pos _

theorem Answer.byteAt_past (a : Answer) (early : Bool) {index : Nat} (past : a.bytes.length ≤ index) :
    a.byteAt early index = 0x00 := by
  rw [Answer.byteAt, List.getElem?_eq_none past]

/-- The bytes that leave the station for an answer: FFH in place of each when it is clocked early (R159). -/
theorem Answer.byteAt_eq_getD (a : Answer) (early : Bool) (index : Nat) : a.byteAt early index =
    (if early = true then List.replicate a.bytes.length 0xFF else a.bytes)[index]?.getD 0x00 := by
  rw [Answer.byteAt]
  by_cases within : index < a.bytes.length
  · rw [List.getElem?_eq_getElem within]
    cases early <;> simp [within, earlyByte]
  · rw [List.getElem?_eq_none (by omega)]
    cases early <;> simp [Nat.not_lt.mp within]

/-- The n-th bit of a row of bytes, most significant first (R170). -/
theorem getElem?_flatMap_bitsOf (bytes : List Byte) (n : Nat) :
    (bytes.flatMap bitsOf)[n]?.getD false = (bytes[n / 8]?.getD 0x00).getLsbD (7 - n % 8) := by
  induction bytes generalizing n with
  | nil => simp
  | cons x rest ih =>
    rw [List.flatMap_cons]
    by_cases first : n < 8
    · rw [List.getElem?_append_left (by simpa using first), getElem?_bitsOf x first, Nat.div_eq_of_lt first,
        Nat.mod_eq_of_lt first]
      rfl
    · obtain ⟨m, rfl⟩ := Nat.exists_eq_add_of_le' (Nat.not_lt.mp first)
      rw [List.getElem?_append_right (by simp), bitsOf_length, Nat.add_sub_cancel, ih m, Nat.add_mod_right,
        Nat.add_div_right m (by decide)]
      rfl

/-- The first bit of a result byte is a 1 (Table 12-5), as is that of FFH. -/
theorem Answer.firstBit (a : Answer) (early : Bool) : (a.byteAt early 0).getLsbD 7 = true := by
  cases early
  · rw [Answer.byteAt_zero]
    cases a.result <;> rfl
  · exact (by decide : earlyByte.getLsbD 7 = true)

/-! ### An answer as it leaves -/

/-- The tap after n sampling edges of the answer `a`; `early` tells how the first of them judges it (R151, R159). -/
structure Tap.Answering (t : Tap) (a : Answer) (early : Bool) (n : Nat) : Prop where
  answer : t.answer = some a
  state : t.state = if 8 * a.bytes.length ≤ n then .trailing else .answer
  tclk : t.tclk = t.sampledAt
  bits : t.bits = n % 8
  placed : t.placed = n % 8
  sent : n < 8 * a.bytes.length → t.sent = n / 8
  early : t.early = (early && decide (0 < n))
  shiftOut : t.shiftOut = a.byteAt t.early (n / 8)

section
variable {t : Tap} {a : Answer} {early : Bool} {n : Nat}

theorem Tap.Answering.shiftDue (h : t.Answering a early n) : t.shiftDue = true := by
  rw [Tap.shiftDue_iff, h.state]
  refine ⟨?_, h.tclk⟩
  split <;> simp

theorem Tap.Answering.early_of_pos (h : t.Answering a early n) (pos : 0 < n) : t.early = early := by
  rw [h.early, decide_eq_true pos, Bool.and_true]

/-- The shifting edge due next places the n-th bit of the answer (R146, R151). -/
theorem Tap.Answering.nextBit (h : t.Answering a early n) :
    t.shiftEdge.tdo = .bit (Level.ofBit ((a.byteAt early (n / 8)).getLsbD (7 - n % 8))) := by
  have place : (if t.fmt0 = .low then t.bits else t.placed) = n % 8 := by
    rw [h.bits, h.placed, ite_self]
  rw [t.shiftEdge_eq, place, h.shiftOut, h.early]
  by_cases first : n = 0
  · subst first
    exact congrArg (fun b => Tdo.bit (Level.ofBit b)) ((a.firstBit _).trans (a.firstBit _).symm)
  · rw [decide_eq_true (Nat.pos_of_ne_zero first), Bool.and_true]

theorem Tap.Answering.toSamplingEdge_placed (h : t.Answering a early n) :
    t.toSamplingEdge.placed = n % 8 + 1 := by
  rw [Tap.toSamplingEdge_of_due h.shiftDue, ← h.placed]
  rfl

/-- Whatever keeps the straps keeps the level that a sampling edge leaves. -/
theorem Tap.sampledAt_congr {u : Tap} (fmt1 : u.fmt1 = t.fmt1) (fmt0 : u.fmt0 = t.fmt0) :
    u.sampledAt = t.sampledAt := by
  rw [Tap.sampledAt, Tap.sampledAt, Tap.samplesOnRising, Tap.samplesOnRising, fmt1, fmt0]

/-- Within a byte the edge takes one bit; at the first one the answer is judged (R159). -/
theorem Tap.Answering.afterEdge_within (h : t.Answering a early n) (within : n % 8 < 7) {tdi : Level} {elapsed : Nat}
    (judges : n = 0 → early = decide (elapsed < a.wait)) : t.afterEdge tdi elapsed =
      Tap.takeBit { t.toSamplingEdge with early := early, shiftOut := a.byteAt early (n / 8) } tdi := by
  have unchanged (same : t.early = early) : ({ t.toSamplingEdge with
      early := early, shiftOut := a.byteAt early (n / 8) } : Tap) = t.toSamplingEdge := by
    rw [← same, ← h.shiftOut, ← Tap.toSamplingEdge_early, ← Tap.toSamplingEdge_shiftOut]
  by_cases trailing : 8 * a.bytes.length ≤ n
  · have pos : 0 < n := Nat.lt_of_lt_of_le (Nat.mul_pos (by decide) a.length_bytes_pos) trailing
    rw [unchanged (h.early_of_pos pos)]
    exact Tap.afterEdge_of_within (.inr (.inr (h.state.trans (if_pos trailing)))) (by rw [h.bits]; exact within)
  · have edgeBits := t.toSamplingEdge_bits.trans h.bits
    have edgeSent := t.toSamplingEdge_sent.trans (h.sent (Nat.not_le.mp trailing))
    rw [Tap.afterEdge_of_withinAnswer (h.state.trans (if_neg trailing)) h.answer (by rw [h.bits]; exact within)]
    refine congrArg (fun u => Tap.takeBit u tdi) ?_
    by_cases first : n = 0
    · subst first
      by_cases hasty : elapsed < a.wait
      · rw [judges rfl, decide_eq_true hasty]
        exact if_pos ⟨edgeBits, edgeSent, hasty⟩
      · have onTime : early = false := (judges rfl).trans (decide_eq_false hasty)
        rw [unchanged (by rw [h.early, onTime]; rfl)]
        exact if_neg fun ⟨_, _, judged⟩ => hasty judged
    · rw [unchanged (h.early_of_pos (Nat.pos_of_ne_zero first))]
      exact if_neg (by omega)

/-- The edge that ends a byte starts the next one, or 00H past the end, unless it delivers a notice (R143, R151). -/
theorem Tap.Answering.afterEdge_last (h : t.Answering a early n) (last : n % 8 = 7) {tdi : Level} {elapsed : Nat}
    (delivers : a.delivers = none ∨ early = true ∨ n + 1 < 8 * a.bytes.length) : t.afterEdge tdi elapsed =
      { t.endByte (a.byteAt early ((n + 1) / 8)) with
        state := if 8 * a.bytes.length ≤ n + 1 then .trailing else .answer
        sent := if 8 * a.bytes.length ≤ n then t.sent else t.sent + 1 } := by
  have same : t.early = early := h.early_of_pos (by omega)
  have bits : t.bits = 7 := h.bits.trans last
  by_cases trailing : 8 * a.bytes.length ≤ n
  · have state := h.state.trans (if_pos trailing)
    have out : t.shiftOut = 0x00 := h.shiftOut.trans (a.byteAt_past _ (by omega))
    rw [Tap.afterEdge_of_trailingEnd state bits.ge, out, a.byteAt_past early (by omega), if_pos (by omega),
      if_pos trailing]
    simp [Tap.endByte, state]
  · have sent := h.sent (Nat.not_le.mp trailing)
    have next : t.sent + 1 = (n + 1) / 8 := by omega
    have final : a.bytes.length ≤ (n + 1) / 8 ↔ 8 * a.bytes.length ≤ n + 1 := by omega
    have other : ¬(a.delivers ≠ none ∧ early = false ∧ a.bytes.length ≤ (n + 1) / 8) := by
      rintro ⟨notice, onTime, ends⟩
      rcases delivers with none | hasty | before
      · exact notice none
      · exact Bool.false_ne_true (onTime.symm.trans hasty)
      · omega
    rw [Tap.afterEdge_of_answerEnd (h.state.trans (if_neg trailing)) h.answer bits, same, if_neg trailing, next,
      if_neg other, if_congr final rfl rfl]

theorem Tap.Answering.afterEdge (h : t.Answering a early n) {tdi : Level} {elapsed : Nat}
    (judges : n = 0 → early = decide (elapsed < a.wait))
    (delivers : a.delivers = none ∨ early = true ∨ n + 1 < 8 * a.bytes.length) :
    (t.afterEdge tdi elapsed).Answering a early (n + 1) := by
  have least := a.length_bytes_pos
  by_cases within : n % 8 < 7
  · have same : (n + 1) / 8 = n / 8 := by omega
    rw [h.afterEdge_within within judges]
    refine ⟨?_, ?_, ?_, ?_, ?_, fun inside => ?_, ?_, ?_⟩
    · simp [Tap.takeBit, h.answer]
    · simp only [Tap.takeBit, Tap.toSamplingEdge_state, h.state]
      exact if_congr (by omega) rfl rfl
    · exact (Tap.sampledAt_congr (by simp [Tap.takeBit]) (by simp [Tap.takeBit])).symm
    · simp only [Tap.takeBit, Tap.toSamplingEdge_bits, h.bits]
      omega
    · simp only [Tap.takeBit, h.toSamplingEdge_placed]
      omega
    · simp only [Tap.takeBit, Tap.toSamplingEdge_sent, same]
      exact h.sent (by omega)
    · simp [Tap.takeBit]
    · simp [Tap.takeBit, same]
  · have last : n % 8 = 7 := by omega
    rw [h.afterEdge_last last delivers]
    refine ⟨?_, rfl, ?_, ?_, ?_, fun inside => ?_, ?_, ?_⟩
    · simp [Tap.endByte, h.answer]
    · exact (Tap.sampledAt_congr (by simp [Tap.endByte]) (by simp [Tap.endByte])).symm
    · show 0 = _
      omega
    · show 0 = _
      omega
    · have sent := h.sent (by omega)
      show (if 8 * a.bytes.length ≤ n then t.sent else t.sent + 1) = _
      rw [if_neg (by omega)]
      omega
    · simp [Tap.endByte, h.early_of_pos (by omega)]
    · simp [Tap.endByte, h.early_of_pos (by omega)]

end

/-- The answer as a run of sampling edges goes on. -/
theorem Tap.answering_clock {t : Tap} {a : Answer} {elapsed : Nat → Nat}
    (start : t.Answering a (decide (elapsed 0 < a.wait)) 0) (bits : List Bool)
    (delivers : a.delivers = none ∨ elapsed 0 < a.wait ∨ bits.length < 8 * a.bytes.length) :
    (t.clock bits elapsed).Answering a (decide (elapsed 0 < a.wait)) bits.length := by
  induction bits using List.reverseRecOn with
  | nil => exact start
  | append_singleton bits bit ih =>
    rw [List.length_append, List.length_singleton] at delivers ⊢
    rw [t.clock_concat]
    refine (ih (delivers.imp_right (.imp_right fun inside => by omega))).afterEdge (fun first => by rw [first]) ?_
    rw [decide_eq_true_iff]
    exact delivers

/-- Settles O9: after n edges the tap stands at the n-th bit of the answer. -/
theorem answerLeavesBitByBit : Obligations.AnswerLeavesBitByBit := by
  unfold Obligations.AnswerLeavesBitByBit
  refine ⟨rfl, Answer.bytes_eq,
    fun s a tdi elapsed rest state answer bits sent delivers early shiftOut placed tclk => ?_⟩
  have least := a.length_bytes_pos
  have start : s.tap.Answering a (decide (elapsed 0 < a.wait)) 0 :=
    ⟨answer, by rw [state, if_neg (by omega)], tclk.trans s.tap.sampledAt_eq.symm, bits, placed, fun _ => sent,
      by rw [early]; simp, by rw [early, shiftOut]; rfl⟩
  have after := Tap.answering_clock start tdi delivers
  refine ⟨_, reaches_clocked s tdi elapsed rest, after.shiftDue, ?_, after.state⟩
  rw [after.nextBit, Answer.byteAt_eq_getD, ← getElem?_flatMap_bitsOf]
  simp only [decide_eq_true_eq]

end Sys2Proof.Machine

namespace Sys2Proof.Machine

open Sys2Proof.Safety

/-! ### The first check that fails -/

/-- Every check that names an offset passes. -/
def PassesAt (checks : List Check) (offset : Nat) : Prop := ∀ c ∈ checks, offset = c.offset → c.fails = false

@[simp] theorem passesAt_nil (offset : Nat) : PassesAt [] offset := fun _ inNil => absurd inNil List.not_mem_nil

@[simp] theorem passesAt_cons (c : Check) (checks : List Check) (offset : Nat) :
    PassesAt (c :: checks) offset ↔ (offset = c.offset → c.fails = false) ∧ PassesAt checks offset :=
  List.forall_mem_cons

theorem passesAt_append (first second : List Check) (offset : Nat) :
    PassesAt (first ++ second) offset ↔ PassesAt first offset ∧ PassesAt second offset :=
  List.forall_mem_append

theorem passesAt_flatMap {n : Nat} (checks : Fin n → List Check) (offset : Nat) :
    PassesAt ((List.finRange n).flatMap checks) offset ↔ ∀ i, PassesAt (checks i) offset := by
  simp only [PassesAt, List.forall_mem_flatMap, List.mem_finRange, forall_const]

/-- In a list of rising offsets the first failure names the least offset at which a check fails. -/
theorem passesAt_of_firstFails {checks : List Check} (rising : (checks.map Check.offset).Pairwise (· ≤ ·)) {c : Check}
    (first : checks.find? Check.fails = some c) :
    ¬PassesAt checks c.offset ∧ ∀ before < c.offset, PassesAt checks before := by
  obtain ⟨fails, earlier, later, rfl, pass⟩ := List.find?_eq_some_iff_append.mp first
  refine ⟨fun passes => ?_, fun before lt => ?_⟩
  · exact absurd fails (by simp [passes c (by simp) rfl])
  · rw [List.map_append, List.pairwise_append, List.map_cons, List.pairwise_cons] at rising
    obtain ⟨-, ⟨above, -⟩, -⟩ := rising
    rw [passesAt_append, passesAt_cons]
    refine ⟨fun d inEarlier _ => by simpa using pass d inEarlier, fun same => ?_, fun d inLater same => ?_⟩
    · omega
    · have := above d.offset (List.mem_map_of_mem inLater)
      omega

theorem exists_firstFails {checks : List Check} {offset : Nat} (fails : ¬PassesAt checks offset) :
    ∃ c, checks.find? Check.fails = some c := by
  rw [← Option.isSome_iff_exists, List.find?_isSome]
  by_contra none
  exact fails fun c inChecks _ => Bool.eq_false_of_not_eq_true fun failing => none ⟨c, inChecks, failing⟩

/-- The offsets that the checks name, in their order. -/
def checkOffsets : List Nat :=
  List.range' 0 9 ++ List.range' 0x0A 6 ++
    (List.finRange 32).flatMap (fun e => [0, 1, 4, 7, 10].map (entryOffset e + ·)) ++
    (List.finRange 8).flatMap (fun i => (List.range 6).map (inputOffset i + ·)) ++
    (List.finRange 8).flatMap (fun o => (List.range 4).map (outputOffset o + ·))

theorem checkOffsets_rising : checkOffsets.Pairwise (· ≤ ·) :=
  List.isChain_iff_pairwise.mp (by decide +kernel)

/-- The offsets that the checks name are the same for every record. -/
theorem setupChecks_offsets (m : Record) : (setupChecks m).map Check.offset = checkOffsets := by
  have inputs (i : Fin 8) : (inputChecks m i).map Check.offset = (List.range 6).map (inputOffset i + ·) := by
    unfold inputChecks
    dsimp only
    split <;> split <;> rfl
  simp only [setupChecks, checkOffsets, List.map_append, List.map_flatMap, inputs]
  rfl

theorem firstFailure_eq_none_iff_passesAt (m : Record) :
    firstFailure m = none ↔ ∀ offset, PassesAt (setupChecks m) offset := by
  rw [firstFailure_eq_none_iff]
  exact ⟨fun pass _ c inChecks _ => pass c inChecks, fun pass c inChecks => pass c.offset c inChecks rfl⟩

/-- SETUP_COMMIT names the first offset at which a check fails (R164). -/
theorem firstFailure_eq_some_iff_passesAt (m : Record) (offset : Nat) : firstFailure m = some offset ↔
    ¬PassesAt (setupChecks m) offset ∧ ∀ before < offset, PassesAt (setupChecks m) before := by
  have rising : ((setupChecks m).map Check.offset).Pairwise (· ≤ ·) :=
    (setupChecks_offsets m).symm ▸ checkOffsets_rising
  rw [firstFailure, Option.map_eq_some_iff]
  constructor
  · rintro ⟨c, first, rfl⟩
    exact passesAt_of_firstFails rising first
  · rintro ⟨fails, pass⟩
    obtain ⟨c, first⟩ := exists_firstFails fails
    obtain ⟨failsFirst, passBefore⟩ := passesAt_of_firstFails rising first
    refine ⟨c, first, Nat.le_antisymm ?_ ?_⟩
    · exact Nat.le_of_not_lt fun lt => fails (passBefore offset lt)
    · exact Nat.le_of_not_lt fun lt => failsFirst (pass c.offset lt)

/-! ### The fields that the checks judge, as numbers -/

section
variable (b : Byte)

@[simp] theorem Byte.toNat_middleFive : (b.extractLsb' 2 5).toNat = b.toNat / 4 % 32 := by
  simp [BitVec.extractLsb'_toNat, Nat.shiftRight_eq_div_pow]

@[simp] theorem Byte.toNat_middleThree : (b.extractLsb' 4 3).toNat = b.toNat / 16 % 8 := by
  simp [BitVec.extractLsb'_toNat, Nat.shiftRight_eq_div_pow]

end

theorem Record.read_toNat (m : Record) (offset : Nat) : (m.read offset).toNat = byteAt m offset := by
  rw [byteAt]

theorem Record.read_eq_zero_iff (m : Record) (offset : Nat) : m.read offset = 0 ↔ byteAt m offset = 0 := by
  rw [BitVec.toNat_eq]
  rfl

theorem Record.read_eq_mapNone_iff (m : Record) (offset : Nat) : m.read offset = mapNone ↔ byteAt m offset = 0xFF := by
  rw [BitVec.toNat_eq]
  rfl

theorem Record.kindCode_eq (m : Record) (e : Entry) : m.kindCode e = byteAt m (kindAt e) % 4 := Byte.toNat_lowTwo _

theorem Record.modeCode_eq (m : Record) (i : Fin 8) : m.modeCode i = byteAt m (inputOffset i) := by
  rw [Record.modeCode, Record.read_toNat]

theorem Record.watched_iff (m : Record) (e : Entry) : m.watched e = true ↔ 128 ≤ byteAt m (kindAt e) :=
  Byte.getLsbD_seven_iff _

section
variable (m : Record) (e : Entry)

theorem Record.preset_toNat : (m.preset e).toNat = threeAt m (kindAt e + 1) := m.readTally_toNat _
theorem Record.ceiling_toNat : (m.ceiling e).toNat = threeAt m (kindAt e + 4) := m.readTally_toNat _
theorem Record.watchHigh_toNat : (m.watchHigh e).toNat = threeAt m (kindAt e + 7) := m.readTally_toNat _
theorem Record.watchLow_toNat : (m.watchLow e).toNat = threeAt m (kindAt e + 10) := m.readTally_toNat _

theorem Record.allOff_eq_false_iff : m.allOff = false ↔ ∃ used : Fin 32, byteAt m (kindAt used) % 4 ≠ 0 := by
  simp [Record.allOff, Record.kindCode_eq]

end

/-! ### Each check against what the rules ask of its field -/

/-- R165, offset by offset. -/
theorem headerChecks_passesAt_iff (m : Record) (offset : Nat) :
    PassesAt (headerChecks m) offset ↔ headerAccepts m offset := by
  have padding : PassesAt ((List.range' 0x0A 6).map fun k => ⟨k, decide (m.read k ≠ 0)⟩) offset ↔
      (0x0A ≤ offset ∧ offset ≤ 0x0F → byteAt m offset = 0) := by
    simp only [PassesAt, List.forall_mem_map, List.mem_range'_1, decide_eq_false_iff_not, not_not,
      Record.read_eq_zero_iff]
    refine ⟨fun pass within => pass offset (by omega) rfl, fun zero k within same => ?_⟩
    rw [← same]
    exact zero (by omega)
  rw [headerChecks, passesAt_append, padding]
  simp only [passesAt_cons, passesAt_nil, and_true, and_assoc, decide_eq_false_iff_not, not_or, not_lt, not_le]
  simp only [Record.stationNumber, Record.clusterSize, Record.objectionLimit, Record.foundingSilence,
    Record.read_toNat, Record.read_eq_zero_iff]

/-- R166 at one entry. -/
theorem entryChecks_passesAt_iff (m : Record) (e : Entry) (offset : Nat) :
    PassesAt (entryChecks m e) offset ↔ entryAccepts m e offset := by
  have code : byteAt m (kindAt e) % 4 ≤ 2 ↔ ¬byteAt m (kindAt e) % 4 = 3 := by omega
  have unwatched : m.watched e = false ↔ byteAt m (kindAt e) < 128 := by
    rw [← Bool.not_eq_true, Record.watched_iff, not_le]
  simp only [entryChecks, passesAt_cons, passesAt_nil, and_true]
  refine and_congr (imp_congr_right fun _ => ?kind) (and_congr (imp_congr_right fun _ => ?preset)
    (and_congr (imp_congr_right fun _ => ?ceiling) (and_congr (imp_congr_right fun _ => ?high)
      (imp_congr_right fun _ => ?low))))
  case kind =>
    simp only [Bool.or_eq_false_iff, Bool.and_eq_false_imp, decide_eq_false_iff_not, decide_eq_true_eq, not_not, ne_eq,
      and_assoc, Record.allOff_eq_false_iff, Record.kindCode_eq, BitVec.toNat_eq, Byte.toNat_middleFive, code,
      unwatched]
    rfl
  all_goals
    simp only [Record.kindCode_eq, Record.watched_iff, BitVec.toNat_eq, BitVec.lt_def, Record.preset_toNat,
      Record.ceiling_toNat, Record.watchHigh_toNat, Record.watchLow_toNat, BitVec.ofNat_eq_ofNat, BitVec.toNat_ofNat,
      Nat.zero_mod, ne_eq]
  case preset =>
    rw [decide_eq_false_iff_not, not_and, not_not]
  all_goals split <;> rw [decide_eq_false_iff_not] <;> omega

/-- The kind code that a map's or an output's entry byte below 32 leads to. -/
theorem Record.kindCode_ofNat (m : Record) {e : Nat} (inside : e ≤ 31) :
    m.kindCode (Fin.ofNat 32 e) = byteAt m (kindAt e) % 4 := by
  rw [Record.kindCode_eq, Fin.val_ofNat, show e % 32 = e by omega]

theorem Record.watched_ofNat (m : Record) {e : Nat} (inside : e ≤ 31) :
    m.watched (Fin.ofNat 32 e) = true ↔ 128 ≤ byteAt m (kindAt e) := by
  rw [Record.watched_iff, Fin.val_ofNat, show e % 32 = e by omega]

/-- The two checks of a map, present or absent as its input's mode has it (R167). -/
theorem mapChecks_passesAt_iff (m : Record) (at_ : Nat) (used : Prop) [Decidable used] (offset : Nat) :
    PassesAt (if used then mapChecks m at_ else noMapChecks m at_) offset ↔ mapAccepts m at_ used offset := by
  by_cases uses : used
  · rw [if_pos uses]
    simp only [mapAccepts, mapChecks, passesAt_cons, passesAt_nil, and_true, uses, true_and, if_true]
    refine and_congr (imp_congr_right fun _ => ?entry) (imp_congr_right fun _ => ?weight)
    case entry =>
      have kind := m.kindCode_ofNat (e := byteAt m at_)
      simp only [Bool.and_eq_false_imp, Bool.or_eq_false_iff, decide_eq_true_eq, decide_eq_false_iff_not]
      rw [ne_eq, Record.read_eq_mapNone_iff, Record.read_toNat]
      omega
    case weight =>
      simp only [Bool.ite_eq_false_distrib, decide_eq_false_iff_not, Record.read_eq_mapNone_iff,
        Record.read_eq_zero_iff, ne_eq]
      simp only [BitVec.toNat_eq, Byte.toNat_lowNibble, Byte.toNat_middleThree, Record.read_toNat,
        BitVec.ofNat_eq_ofNat, BitVec.toNat_ofNat, Nat.zero_mod]
      split <;> omega
  · rw [if_neg uses]
    simp only [mapAccepts, uses, if_false, noMapChecks, passesAt_cons, passesAt_nil, and_true, false_and,
      decide_eq_false_iff_not, Record.read_eq_zero_iff, ne_eq, not_not]

/-- The even input that an odd input is judged against stands one record before it (R167). -/
theorem inputOffset_sub_one (i : Fin 8) (odd : ¬i.val % 2 = 0) : inputOffset (i - 1) = inputOffset i - 6 := by
  revert i
  decide

theorem modeFails_eq_false_iff (m : Record) (i : Fin 8) : modeFails m i = false ↔
    if i.val % 2 = 0 then byteAt m (inputOffset i) ≤ 2
    else byteAt m (inputOffset i) ≤ 3 ∧ byteAt m (inputOffset i) ≠ 2 ∧
      (byteAt m (inputOffset i) = 3 ↔ byteAt m (inputOffset i - 6) = 2) := by
  unfold modeFails
  dsimp only
  split
  · rw [decide_eq_false_iff_not, Record.modeCode_eq]
    omega
  · next odd =>
    simp only [Bool.or_eq_false_iff, decide_eq_false_iff_not, Record.modeCode_eq, inputOffset_sub_one i odd]
    omega

theorem secondByteFails_eq_false_iff (m : Record) (i : Fin 8) : secondByteFails m i = false ↔
    byteAt m (inputOffset i + 1) / 16 ≤ 4 ∧
    (byteAt m (inputOffset i) = 1 → byteAt m (inputOffset i + 1) % 16 ≤ 2) ∧
    (byteAt m (inputOffset i) = 2 → byteAt m (inputOffset i + 1) % 16 ≤ 1) ∧
    (byteAt m (inputOffset i) = 0 ∨ byteAt m (inputOffset i) = 3 → byteAt m (inputOffset i + 1) % 16 = 0) ∧
    (byteAt m (inputOffset i) = 0 → byteAt m (inputOffset i + 1) / 16 = 0) := by
  simp only [secondByteFails, Bool.or_eq_false_iff, decide_eq_false_iff_not, and_assoc]
  simp only [Byte.toNat_highNibble, Byte.toNat_lowNibble, Record.read_toNat, Record.modeCode_eq]
  omega

/-- R167 at one input. -/
theorem inputChecks_passesAt_iff (m : Record) (i : Fin 8) (offset : Nat) :
    PassesAt (inputChecks m i) offset ↔ inputAccepts m i offset := by
  unfold inputChecks
  dsimp only
  rw [passesAt_append, passesAt_append, mapChecks_passesAt_iff, mapChecks_passesAt_iff, passesAt_cons, passesAt_cons,
    modeFails_eq_false_iff, secondByteFails_eq_false_iff, and_assoc, and_assoc, and_iff_left (passesAt_nil offset)]
  rfl

/-- R168 at one output. -/
theorem outputChecks_passesAt_iff (m : Record) (o : Fin 8) (offset : Nat) :
    PassesAt (outputChecks m o) offset ↔ outputAccepts m o offset := by
  simp only [outputChecks, passesAt_cons, passesAt_nil, and_true, Bool.ite_eq_false_distrib, Bool.or_eq_false_iff,
    decide_eq_false_iff_not]
  refine and_congr (imp_congr_right fun _ => ?source) (and_congr (imp_congr_right fun _ => ?entry)
    (and_congr (imp_congr_right fun _ => ?mode) (imp_congr_right fun _ => ?width)))
  all_goals simp only [Byte.toNat_lowNibble, Record.read_toNat, outputOffset]
  case source => rw [not_lt]
  case entry =>
    have watched := m.watched_ofNat (e := byteAt m (0x1E0 + 4 * o.val + 1))
    split
    · rw [not_lt, Bool.not_eq_false']
      exact and_congr_right watched
    · rw [not_not, Record.read_eq_zero_iff]
  case mode =>
    rw [not_not, BitVec.toNat_eq, Byte.toNat_middleThree]
    refine and_congr_right' ?_
    split <;> omega
  case width =>
    simp only [Record.read_eq_zero_iff, ne_eq]
    split
    · rw [not_and]
    · rw [not_not]

/-- The checks ask of every field what R165 to R168 ask of it. -/
theorem setupChecks_passesAt_iff (m : Record) (offset : Nat) :
    PassesAt (setupChecks m) offset ↔ acceptsAt m offset := by
  simp only [setupChecks, passesAt_append, passesAt_flatMap, headerChecks_passesAt_iff, entryChecks_passesAt_iff,
    inputChecks_passesAt_iff, outputChecks_passesAt_iff, acceptsAt, and_assoc]

theorem firstFailure_eq_none_iff_acceptsAt (m : Record) : firstFailure m = none ↔ ∀ offset, acceptsAt m offset := by
  rw [firstFailure_eq_none_iff_passesAt]
  exact forall_congr' (setupChecks_passesAt_iff m)

/-! ### What the bytes of an accepted record say of its settings -/

section
variable (m : Record)

theorem Record.kind_eq_off_iff (e : Entry) : m.kind e = .off ↔ ¬(m.kindCode e = 1 ∨ m.kindCode e = 2) := by
  unfold Record.kind Record.kindCode
  split <;> simp_all

theorem Record.kind_eq_level_iff (e : Entry) : m.kind e = .level ↔ m.kindCode e = 2 := by
  unfold Record.kind Record.kindCode
  split <;> simp_all

theorem Record.inputMode_eq_single_iff (i : Fin 8) : m.inputMode i = .single ↔ m.modeCode i = 1 := by
  unfold Record.inputMode Record.modeCode
  split <;> simp_all

theorem Record.outputSource_eq_watch_iff (o : Fin 8) :
    m.outputSource o = .watch ↔ byteAt m (outputOffset o) = 1 := by
  unfold Record.outputSource byteAt
  split <;> simp_all

/-- The codes below 3 name the modes that follow the level (Table 8-2). -/
theorem Record.followsLevel_of_lt (o : Fin 8) (lt : byteAt m (outputOffset o + 2) % 16 < 3) :
    (m.outputMode o).followsLevel = true := by
  rw [byteAt] at lt
  simp only [Record.outputMode, Byte.toNat_lowNibble]
  split
  any_goals rfl
  all_goals omega

theorem Record.mapAt_entry_eq_some_iff (at_ : Nat) (e : Entry) :
    (m.mapAt at_).entry = some e ↔ byteAt m at_ = e.val := by
  refine ⟨fun named => ?_, (m.mapReads at_).1 e⟩
  simp only [Record.mapAt, Option.dite_none_right_eq_some, Option.some.injEq] at named
  obtain ⟨inside, rfl⟩ := named
  rfl

theorem Record.mapAt_amount_natAbs (at_ : Nat) : (m.mapAt at_).amount.natAbs = byteAt m (at_ + 1) % 16 := by
  obtain ⟨-, -, amount⟩ := m.mapReads at_
  rw [amount]
  split <;> omega

end

section
variable {m : Record} (accepted : firstFailure m = none)
include accepted

theorem acceptsAt_of_accepted (offset : Nat) : acceptsAt m offset :=
  (firstFailure_eq_none_iff_acceptsAt m).mp accepted offset

/-- R165 in the terms of the settings. -/
theorem headerSettings_of_accepted :
    (m.stationNumber < m.clusterSize ∧ 2 ≤ m.clusterSize ∧ m.clusterSize ≤ 16) ∧
    (1 ≤ m.roundInterval ∧ 1 ≤ (m.read 0x05).toNat ∧ (m.read 0x03).toNat ≤ 3 ∧ (m.read 0x08).toNat ≤ 3) ∧
    (2 ≤ m.objectionLimit ∧ m.objectionLimit ≤ 15 ∧ 3 ≤ m.foundingSilence ∧ m.foundingSilence ≤ 63) := by
  have header (offset : Nat) : headerAccepts m offset := (acceptsAt_of_accepted accepted offset).1
  obtain ⟨-, size, -⟩ := header 0x01
  obtain ⟨-, -, -, half, -⟩ := header 0x03
  obtain ⟨-, -, -, -, interval, -⟩ := header 0x04
  obtain ⟨-, -, -, -, -, stall, -⟩ := header 0x05
  obtain ⟨-, -, -, -, -, -, objections, -⟩ := header 0x06
  obtain ⟨-, -, -, -, -, -, -, silence, -⟩ := header 0x07
  obtain ⟨-, -, -, -, -, -, -, -, period, -⟩ := header 0x08
  obtain ⟨least, most, number⟩ := size rfl
  obtain ⟨objectionsLeast, objectionsMost⟩ := objections rfl
  obtain ⟨silenceLeast, silenceMost⟩ := silence rfl
  exact ⟨⟨number, least, most⟩,
    ⟨Nat.one_le_iff_ne_zero.mpr (interval rfl), Nat.one_le_iff_ne_zero.mpr (stall rfl), half rfl, period rfl⟩,
    objectionsLeast, objectionsMost, silenceLeast, silenceMost⟩

theorem entryAccepts_of_accepted (e : Entry) (offset : Nat) : entryAccepts m e offset := by
  obtain ⟨-, entries, -⟩ := acceptsAt_of_accepted accepted offset
  exact entries e

/-- What an accepted kind byte holds (R166). -/
theorem kindByte_of_accepted (e : Entry) : m.kindCode e ≤ 2 ∧ (m.kindCode e = 0 → m.watched e = false) ∧
    (e = 31 → ∃ used, m.kindCode used ≠ 0) := by
  obtain ⟨kind, -⟩ := entryAccepts_of_accepted accepted e (kindAt e)
  obtain ⟨code, -, unwatched, used⟩ := kind rfl
  simp only [Record.kindCode_eq, ← Bool.not_eq_true, Record.watched_iff, not_le]
  exact ⟨code, unwatched, used⟩

theorem kind_eq_off_iff_of_accepted (e : Entry) : m.kind e = .off ↔ m.kindCode e = 0 := by
  obtain ⟨code, -⟩ := kindByte_of_accepted accepted e
  rw [Record.kind_eq_off_iff]
  omega

/-- An accepted record uses an entry: its last kind byte is judged for that (R166). -/
theorem exists_used_of_accepted : ∃ e : Entry, m.kind e ≠ .off := by
  obtain ⟨-, -, used⟩ := kindByte_of_accepted accepted 31
  obtain ⟨e, code⟩ := used rfl
  exact ⟨e, (kind_eq_off_iff_of_accepted accepted e).not.mpr code⟩

/-- R166 in the terms of an entry's settings. -/
theorem entrySettings_of_accepted (e : Entry) :
    (m.kind e = .off → m.watched e = false ∧ m.preset e = 0) ∧
    (m.kind e = .level → 1 ≤ m.ceiling e ∧ m.preset e ≤ m.ceiling e) ∧
    (m.watched e = true → m.watchLow e < m.watchHigh e ∧ (m.kind e = .level → m.watchHigh e ≤ m.ceiling e)) := by
  have fields := entryAccepts_of_accepted accepted e
  obtain ⟨-, preset, -⟩ := fields (kindAt e + 1)
  obtain ⟨-, -, ceiling, -⟩ := fields (kindAt e + 4)
  obtain ⟨-, -, -, high, -⟩ := fields (kindAt e + 7)
  obtain ⟨-, -, -, -, low⟩ := fields (kindAt e + 10)
  obtain ⟨-, unwatched, -⟩ := kindByte_of_accepted accepted e
  rw [kind_eq_off_iff_of_accepted accepted, Record.kind_eq_level_iff]
  simp only [BitVec.toNat_eq, BitVec.le_def, BitVec.lt_def, Record.preset_toNat, Record.ceiling_toNat,
    Record.watchHigh_toNat, Record.watchLow_toNat, Record.kindCode_eq, Record.watched_iff] at unwatched ⊢
  refine ⟨fun off => ⟨unwatched off, preset rfl off⟩, fun level => ?_, fun watched => ⟨?_, fun level => ?_⟩⟩
  · exact (if_pos level).mp (ceiling rfl)
  · exact (if_pos watched).mp (low rfl)
  · exact (if_pos watched).mp (high rfl) level

/-- The modes of an accepted record come in whole pairs (R167). -/
theorem pairModes_of_accepted (p : Fin 4) :
    (m.inputMode (pairA p) = .pairA ↔ m.inputMode (pairB p) = .pairB) ∧
    m.inputMode (pairA p) ≠ .pairB ∧ m.inputMode (pairB p) ≠ .pairA := by
  have oddVal : ¬(pairB p).val % 2 = 0 := by simp [pairB, Nat.add_mod]
  have even := (modeFails_eq_false_iff m (pairA p)).mp (Record.modeFails_of_accepted accepted _)
  have odd := (modeFails_eq_false_iff m (pairB p)).mp (Record.modeFails_of_accepted accepted _)
  rw [if_pos (by simp [pairA])] at even
  rw [if_neg oddVal, ← inputOffset_sub_one _ oddVal, pairB_sub_one] at odd
  simp only [ne_eq, Record.inputMode_eq_pairA_iff, Record.inputMode_eq_pairB_iff, Record.modeCode_eq]
  omega

/-- A map that passes its checks and names an entry names a used one, with an amount from 1 to 15 (R167). -/
theorem mapSettings_of_accepts {at_ : Nat} {used : Prop} [Decidable used]
    (accepts : ∀ offset, mapAccepts m at_ used offset) (uses : used) {e : Entry}
    (named : (m.mapAt at_).entry = some e) :
    m.kind e ≠ .off ∧ 1 ≤ (m.mapAt at_).amount.natAbs ∧ (m.mapAt at_).amount.natAbs ≤ 15 := by
  rw [Record.mapAt_entry_eq_some_iff] at named
  obtain ⟨entry, -⟩ := accepts at_
  obtain ⟨-, weight⟩ := accepts (at_ + 1)
  have entry := (if_pos uses).mp (entry rfl)
  have weight := (if_pos ⟨uses, by omega⟩).mp (weight rfl)
  rw [named, ← Record.kindCode_eq] at entry
  rw [ne_eq, kind_eq_off_iff_of_accepted accepted, Record.mapAt_amount_natAbs]
  omega

/-- Every map that an accepted input uses, a pair's reverse map among them (R167). -/
theorem mapSettings_of_accepted (i : Fin 8) (map : CountMap)
    (own : map = m.firstMap i ∨ (m.inputMode i = .pairA ∧ map = m.secondMap i))
    (mode : m.inputMode i = .single ∨ m.inputMode i = .pairA) (e : Entry) (named : map.entry = some e) :
    m.kind e ≠ .off ∧ 1 ≤ map.amount.natAbs ∧ map.amount.natAbs ≤ 15 := by
  have input (offset : Nat) : inputAccepts m i offset := by
    obtain ⟨-, -, inputs, -⟩ := acceptsAt_of_accepted accepted offset
    exact inputs i
  rw [Record.inputMode_eq_single_iff] at mode
  rw [Record.inputMode_eq_pairA_iff] at mode own
  rcases own with rfl | ⟨pair, rfl⟩
  · refine mapSettings_of_accepts accepted (fun offset => ?_) mode named
    obtain ⟨-, -, first, -⟩ := input offset
    exact first
  · refine mapSettings_of_accepts accepted (fun offset => ?_) pair named
    obtain ⟨-, -, -, second⟩ := input offset
    exact second

/-- An accepted WATCH output names a watched entry, and a pulse mode gives it a width (R168). -/
theorem outputSettings_of_accepted (o : Fin 8) (source : m.outputSource o = .watch) :
    m.watched (m.outputEntry o) = true ∧ ((m.outputMode o).followsLevel = false → 1 ≤ m.pulseWidth o) := by
  have output (offset : Nat) : outputAccepts m o offset := by
    obtain ⟨-, -, -, outputs⟩ := acceptsAt_of_accepted accepted offset
    exact outputs o
  rw [Record.outputSource_eq_watch_iff] at source
  obtain ⟨-, entry, -⟩ := output (outputOffset o + 1)
  obtain ⟨-, -, -, width⟩ := output (outputOffset o + 3)
  obtain ⟨inside, watched⟩ := (if_pos source).mp (entry rfl)
  refine ⟨(m.watched_ofNat inside).mpr watched, fun pulses => Nat.one_le_iff_ne_zero.mpr ?_⟩
  refine (if_pos source).mp (width rfl) (Nat.le_of_not_lt fun lt => ?_)
  exact Bool.false_ne_true (pulses.symm.trans (m.followsLevel_of_lt o lt))

end

/-- Settles O22: each check of the list asks what the rules ask of its field, and the list rises by offset. -/
theorem acceptedRecordIsSound : Obligations.AcceptedRecordIsSound := by
  unfold Obligations.AcceptedRecordIsSound
  refine ⟨firstFailure_eq_none_iff_acceptsAt, fun m offset => ?_, fun m accepted => ?_⟩
  · simp only [firstFailure_eq_some_iff_passesAt, setupChecks_passesAt_iff]
  · obtain ⟨number, limits, counts⟩ := headerSettings_of_accepted accepted
    exact ⟨number, limits, counts, exists_used_of_accepted accepted, entrySettings_of_accepted accepted,
      pairModes_of_accepted accepted, mapSettings_of_accepted accepted, outputSettings_of_accepted accepted⟩

end Sys2Proof.Machine

namespace Sys2Proof.Machine

open Sys2Proof.Safety

/-! ### Values within their ceilings (R3) -/

/-- Every LEVEL entry of a replica lies within its ceiling (R3). -/
def Replica.WithinCeilings (m : Record) (r : Replica) : Prop :=
  ∀ e : Entry, m.kind e = .level → r.entries[e].value ≤ m.ceiling e

/-- The sum of a delta held to the ceiling lies within it (R3). -/
theorem deltaResult_le_ceiling (ceiling value : Tally) (amount : Amount) :
    (deltaResult .level ceiling value amount).1 ≤ ceiling := by
  simp only [deltaResult]
  split
  · exact Nat.zero_le _
  · split
    · exact BitVec.le_refl _
    · have small : ceiling.toNat < 16777216 := ceiling.isLt
      simp only [BitVec.le_def, BitVec.toNat_ofInt]
      omega

theorem Replica.withinCeilings_empty (m : Record) : Replica.empty.WithinCeilings m := fun e _ => by
  simp [Replica.empty, BitVec.le_def]

section
variable {m : Record} {r : Replica}

theorem Replica.WithinCeilings.setValue (h : r.WithinCeilings m) {e : Entry} {value : Tally}
    (within : m.kind e = .level → value ≤ m.ceiling e) : (r.setValue e value).WithinCeilings m := by
  intro x level
  by_cases same : x = e
  · subst same
    rw [Fin.getElem_fin, Replica.setValue_same]
    exact within level
  · rw [Replica.setValue_other r value same]
    exact h x level

theorem Replica.WithinCeilings.adoptCarry (h : r.WithinCeilings m) {f : Frame}
    (carry : carryInRange m f.carryIndex f.carryValue = true) : (r.adoptCarry f).WithinCeilings m := by
  intro x level
  simp only [Replica.adoptCarry, Fin.getElem_fin, Vector.getElem_set]
  split
  · next same =>
    obtain rfl : f.carryIndex = x := Fin.ext same
    exact ((carryInRange_iff m _ _).mp carry).2 level
  · exact h x level

variable (presets : ∀ e, m.kind e = .level → m.preset e ≤ m.ceiling e)
include presets

theorem Replica.WithinCeilings.applyAll (h : r.WithinCeilings m) (listening : Bool) (round : List Business) :
    (r.applyAll m listening round).1.WithinCeilings m := by
  refine Replica.applyAll_induction (P := Replica.WithinCeilings m) m listening (fun x e hx => ?_) (fun x d hx => ?_) r
    round h
  · rcases x.applyZero_cases m listening e with ⟨-, eq⟩ | ⟨-, eq⟩ <;> rw [eq]
    · exact hx.setValue (presets e)
    · exact hx
  · rcases Replica.applyDelta_cases m listening x d with ⟨-, eq⟩ | ⟨-, eq⟩ <;> rw [eq]
    · refine hx.setValue fun level => ?_
      rw [level]
      exact deltaResult_le_ceiling _ _ _
    · exact hx

theorem Replica.WithinCeilings.applyRound (h : r.WithinCeilings m) (round : List Business) :
    (r.applyRound m round).1.WithinCeilings m := h.applyAll presets false round

theorem Replica.WithinCeilings.adopt (h : r.WithinCeilings m) {frames : List Frame}
    (carries : ∀ f ∈ frames, carryInRange m f.carryIndex f.carryValue = true) :
    (r.adopt m frames).WithinCeilings m := by
  have start : (r.adoptCs frames).WithinCeilings m := by
    unfold Replica.adoptCs
    split
    · split <;> exact h
    · exact h
  have carried : (frames.foldl Replica.adoptCarry (r.adoptCs frames)).WithinCeilings m := by
    generalize r.adoptCs frames = x at start
    induction frames generalizing x with
    | nil => exact start
    | cons f rest ih =>
      obtain ⟨first, rest⟩ := List.forall_mem_cons.mp carries
      exact ih rest _ (start.adoptCarry first)
  have applied := carried.applyAll presets true (frames.map Frame.business)
  unfold Replica.adopt Replica.countRound
  dsimp only
  split <;> exact applied

theorem Replica.WithinCeilings.found (h : r.WithinCeilings m) : (r.found m).WithinCeilings m := by
  intro x level
  simp only [Replica.found, Fin.getElem_fin, Vector.getElem_ofFn]
  split
  · exact h x level
  · exact presets x level

end

/-- What an adoption does to the flags: the stale flag stays (R15, R16). -/
theorem Replica.adopt_stale (m : Record) (r : Replica) (frames : List Frame) : (r.adopt m frames).stale = r.stale := by
  have carried : ∀ (fs : List Frame) (x : Replica), (fs.foldl Replica.adoptCarry x).stale = x.stale := by
    intro fs
    induction fs with
    | nil => exact fun _ => rfl
    | cons f rest ih => exact fun x => ih _
  have start : (r.adoptCs frames).stale = r.stale := by
    unfold Replica.adoptCs
    split
    · split <;> rfl
    · rfl
  obtain ⟨-, -, applied, -⟩ := (frames.foldl Replica.adoptCarry (r.adoptCs frames)).applyAll_flags m true
    (frames.map Frame.business)
  unfold Replica.adopt Replica.countRound
  dsimp only
  split <;> exact applied.trans ((carried _ _).trans start)

/-! ### An Outbox that names no OFF entry (R63) -/

/-- R63, R66 and R73 by name, over an Outbox alone. -/
structure Outbox.NamesUsed (m : Record) (o : Outbox) : Prop where
  pending : ∀ e : Entry, o.pending[e] ≠ 0 → m.kind e ≠ .off
  deltas : ∀ d ∈ o.flightDeltas, m.kind d.entry ≠ .off
  zeros : ∀ e ∈ o.zeroList ++ o.flightZeros, m.kind e ≠ .off

theorem outboxNamesUsed_iff (s : State) : OutboxNamesUsed s ↔ s.outbox.NamesUsed s.settings :=
  ⟨fun ⟨pending, deltas, zeros⟩ => ⟨pending, deltas, zeros⟩, fun ⟨pending, deltas, zeros⟩ => ⟨pending, deltas, zeros⟩⟩

theorem Outbox.namesUsed_empty (m : Record) : Outbox.empty.NamesUsed m :=
  ⟨fun e pending => by simp [Outbox.empty] at pending, by simp [Outbox.empty], by simp [Outbox.empty]⟩

section
variable {m : Record} {o : Outbox} (h : o.NamesUsed m)
include h

theorem Outbox.NamesUsed.add {e : Entry} (used : m.kind e ≠ .off) (amount : Int) : (o.add e amount).1.NamesUsed m := by
  refine ⟨fun x pending => ?_, ?_, ?_⟩
  · rw [Outbox.add_pending, Fin.getElem_fin, Vector.getElem_set] at pending
    split at pending
    · next same => exact Fin.ext same ▸ used
    · exact h.pending x pending
  all_goals rw [o.add_frame e amount]
  · exact h.deltas
  · exact h.zeros

theorem Outbox.NamesUsed.addAll (cs : Option Half) (deltas : List Delta) (used : ∀ d ∈ deltas, m.kind d.entry ≠ .off) :
    (o.addAll cs deltas).1.NamesUsed m := by
  induction deltas generalizing o with
  | nil => exact h
  | cons d rest ih =>
    obtain ⟨first, rest⟩ := List.forall_mem_cons.mp used
    rw [Outbox.addAll_cons]
    exact ih (h.add first _) rest

theorem Outbox.NamesUsed.giveBack (cs : Option Half) : (o.giveBack cs).1.NamesUsed m := by
  have pending := (h.addAll cs o.flightDeltas h.deltas).pending
  rw [Outbox.giveBack_eq]
  refine ⟨pending, by simp, fun e listed => h.zeros e ?_⟩
  simp only [List.append_nil, List.mem_append] at listed ⊢
  exact listed.symm

theorem Outbox.NamesUsed.retire : o.retire.NamesUsed m :=
  ⟨h.pending, by simp [Outbox.retire, Outbox.emptyFlight], fun e listed => h.zeros e (by
    simp only [Outbox.retire, Outbox.emptyFlight, List.append_nil] at listed
    exact List.mem_append_left _ listed)⟩

theorem Outbox.NamesUsed.afterComposition (member : Bool) : (o.afterComposition member).NamesUsed m := by
  refine ⟨fun e pending => h.pending e fun zero => pending ?_, fun d taken => ?_, fun e listed => h.zeros e ?_⟩
  · have untaken : e ∉ o.selection := fun taken => Outbox.pending_ne_zero_of_mem_selection taken zero
    rw [(o.afterComposition_of_left member untaken).1]
    exact zero
  · exact h.pending _ (Outbox.pending_ne_zero_of_mem_selection (Outbox.mem_selection_of_mem_deltasTaken taken))
  · refine List.mem_append_left _ ?_
    rcases List.mem_append.mp listed with left | taken
    · exact List.mem_of_mem_drop left
    · exact List.mem_of_mem_take taken

theorem Outbox.NamesUsed.request {e : Entry} (used : m.kind e ≠ .off) :
    Outbox.NamesUsed m { o with zeroList := o.zeroList ++ [e] } := by
  refine ⟨h.pending, h.deltas, fun x listed => ?_⟩
  simp only [List.append_assoc, List.mem_append, List.mem_singleton] at listed
  rcases listed with there | rfl | there
  · exact h.zeros x (List.mem_append_left _ there)
  · exact used
  · exact h.zeros x (List.mem_append_right _ there)

/-- Where every entry is OFF, an Outbox that names none names an entry under no record at all. -/
theorem Outbox.NamesUsed.of_allOff (off : ∀ e, m.kind e = .off) (n : Record) : o.NamesUsed n :=
  ⟨fun e pending => absurd (off e) (h.pending e pending), fun d inFlight => absurd (off _) (h.deltas d inFlight),
    fun e listed => absurd (off e) (h.zeros e listed)⟩

end

/-! ### Watch states that agree with the values (R125) -/

/-- The law of R125 over one replica: at or above H is ABOVE, at or below L is BELOW. -/
def WatchesAgree (m : Record) (r : Replica) (watches : Vector Watch 32) : Prop :=
  ∀ e : Entry, m.watched e = true →
    (m.watchHigh e ≤ readValue m r e → watches[e] = .above) ∧ (readValue m r e ≤ m.watchLow e → watches[e] = .below)

section
variable {m : Record} (apart : ∀ e, m.watched e = true → m.watchLow e < m.watchHigh e)
include apart

/-- An evaluation leaves every watch in agreement, from whatever state before (R125). -/
theorem watchesAgree_evaluateWatches (r : Replica) (before : Vector Watch 32) :
    WatchesAgree m r (evaluateWatches m r before) := by
  intro e watched
  have lt := BitVec.lt_def.mp (apart e watched)
  cases state : before[e] with
  | below =>
    rw [evaluateWatches_of_below r watched state]
    simp only [BitVec.le_def]
    grind
  | above =>
    rw [evaluateWatches_of_above r watched state]
    simp only [BitVec.le_def]
    grind

theorem watchesAgree_silentWatches (r : Replica) (before : Vector Watch 32) :
    WatchesAgree m r (silentWatches m r before) := by
  intro e watched
  have lt := BitVec.lt_def.mp (apart e watched)
  have eq : (silentWatches m r before)[e] = silentWatch (readValue m r e) (m.watchHigh e) := by
    simp [silentWatches, watched]
  rw [eq]
  simp only [silentWatch, BitVec.le_def]
  grind

end

/-! ### Outputs that agree with their sources (R128 to R133) -/

/-- The law of R128 to R133 for one output. -/
def OutputAgrees (m : Record) (valid : Bool) (watches : Vector Watch 32) (o : Fin 8) (out : Output) : Prop :=
  (m.outputSource o = .none → out.level = m.safeLevel o ∧ out.pulse = none) ∧
  (m.outputSource o = .local → out.latch = some out.level ∧ out.pulse = none) ∧
  (m.outputSource o = .watch → valid = false → out.level = m.safeLevel o ∧ out.pulse = none) ∧
  (m.outputSource o = .watch → valid = true → (m.outputMode o).followsLevel = true →
    out.level = levelFor m o watches[m.outputEntry o] ∧ out.pulse = none) ∧
  (m.outputSource o = .watch → valid = true → (m.outputMode o).followsLevel = false →
    out.level = if out.pulse.isSome then onLevel m o else m.safeLevel o)

theorem outputsWf_iff (s : State) : OutputsWf s ↔ (s.setup.committed = true →
    ∀ o : Fin 8, OutputAgrees s.settings s.valid s.watches o s.outputs[o]) := Iff.rfl

theorem levelFor_of_pulse {m : Record} {o : Fin 8} (pulses : (m.outputMode o).followsLevel = false) (w : Watch) :
    levelFor m o w = m.safeLevel o := by
  rw [levelFor_eq_ite, if_neg]
  rintro (⟨mode, -⟩ | ⟨mode, -⟩) <;> rw [mode] at pulses <;> exact nomatch pulses

section
variable {m : Record} {watches : Vector Watch 32} {o : Fin 8} {outs : Vector Output 8}

/-- An output that no watch drives stands alike at every replica and in every watch state. -/
theorem OutputAgrees.of_unwatched {valid : Bool} {out : Output} (h : OutputAgrees m valid watches o out)
    (other : m.outputSource o ≠ .watch) (valid' : Bool) (watches' : Vector Watch 32) :
    OutputAgrees m valid' watches' o out :=
  ⟨h.1, h.2.1, fun source => absurd source other, fun source => absurd source other, fun source => absurd source other⟩

/-- Validity lost: every WATCH output at its safe level, every pulse cancelled (R131). -/
theorem outputAgrees_withoutValidity {valid : Bool} (h : OutputAgrees m valid watches o outs[o])
    (watches' : Vector Watch 32) : OutputAgrees m false watches' o (outputsWithoutValidity m outs)[o] := by
  rw [getElem_outputsWithoutValidity]
  split
  · next source => exact ⟨by simp [source], by simp [source], fun _ _ => ⟨rfl, rfl⟩, nofun, nofun⟩
  · next other =>
    obtain ⟨off, latched, -⟩ := h
    exact ⟨fun source => ⟨(off source).1, rfl⟩, fun source => ⟨(latched source).1, rfl⟩,
      fun source => absurd source other, nofun, nofun⟩

/-- Validity gained: level outputs from the watch states, pulse outputs off (R132). -/
theorem outputAgrees_withValidity {before : Vector Watch 32} (h : OutputAgrees m false before o outs[o]) :
    OutputAgrees m true watches o (outputsWithValidity m watches outs)[o] := by
  rw [getElem_outputsWithValidity]
  split
  · next source =>
    obtain ⟨-, pulse⟩ := h.2.2.1 source rfl
    refine ⟨by simp [source], by simp [source], nofun, fun _ _ _ => ⟨rfl, pulse⟩, fun _ _ pulses => ?_⟩
    rw [pulse, levelFor_of_pulse pulses]
    rfl
  · next other => exact h.of_unwatched other _ _

/-- A commit moves a WATCH output with its watch state alone (R129, R130). -/
theorem outputAgrees_afterCommit {before : Vector Watch 32} (h : OutputAgrees m true before o outs[o]) :
    OutputAgrees m true watches o (outputsAfterCommit m before watches outs)[o] := by
  rw [getElem_outputsAfterCommit]
  split
  · next moved =>
    obtain ⟨source, -⟩ := moved
    obtain ⟨-, -, -, follows, pulses⟩ := h
    refine ⟨by simp [source], by simp [source], nofun, fun _ _ mode => ?_, fun _ _ mode => ?_⟩
    · rw [outputOnTransition_of_followsLevel _ _ mode]
      exact ⟨rfl, (follows source rfl mode).2⟩
    · cases triggered : triggers (m.outputMode o) watches[m.outputEntry o]
      · rw [outputOnTransition_of_pulse _ _ mode triggered]
        exact pulses source rfl mode
      · rw [outputOnTransition_of_triggers _ _ triggered]
        rfl
  · next unmoved =>
    by_cases source : m.outputSource o = .watch
    · have same : before[m.outputEntry o] = watches[m.outputEntry o] := by
        simpa only [source, true_and, ne_eq, not_not] using unmoved
      obtain ⟨off, latched, -, follows, pulses⟩ := h
      refine ⟨off, latched, nofun, fun source valid mode => ?_, pulses⟩
      rw [← same]
      exact follows source valid mode
    · exact h.of_unwatched source _ _

end

end Sys2Proof.Machine

namespace Sys2Proof.Machine

open Sys2Proof.Safety

/-! ### The Setup store through every command -/

theorem setupWf_of_steady {s t : State} (h : SetupWf s) (k : Steady s t) : SetupWf t := by
  obtain ⟨wf, -, holds, clock, -, -⟩ := h
  refine ⟨?_, k.mode, ?_, ?_, k.sends, fun resets => (k.reset resets).2⟩
  · rw [k.record]; exact wf
  · rw [k.committed, k.record, k.digest]; exact holds
  · rw [k.inputs, k.committed]; exact clock

theorem setupWf_blocksReset (s : State) {record : Record} (wf : record.wf = true) (kind : ResetKind) :
    SetupWf (s.blocksReset record kind) :=
  (countingWf_blocksReset s wf kind).1

/-- What the law of the Setup store speaks of. -/
def State.store (s : State) : SetupStore × StationState × Bool × Bool × Option ResetKind × TapState :=
  (s.setup, s.member.state, s.inputs.clock, s.transmits, s.resetting, s.tap.state)

section
variable {s : State} (h : SetupWf s)
include h

theorem setupWf_of_store {t : State} (same : t.store = s.store) : SetupWf t := by
  simp only [State.store, Prod.mk.injEq] at same
  obtain ⟨setup, state, clock, sends, resetting, tap⟩ := same
  simp only [SetupWf, State.valid, setup, state, clock, sends, resetting, tap] at h ⊢
  exact h

theorem setupWf_takeRequest {code : Byte} {operands : List Byte} {effect : State → State × Answer}
    (done : s.tap.state ≠ .idle → SetupWf (effect s).1) (resetting : (effect s).1.resetting = s.resetting) :
    Leads SetupWf (takeRequest code operands effect s) := by
  rcases takeRequest_cases code operands effect s with ⟨-, eq⟩ | ⟨completes, eq⟩ <;> rw [eq, leads_next]
  · exact h
  · have busy : s.tap.state ≠ .idle := by
      rcases Tap.state_of_completes completes with state | state <;> rw [state] <;> decide
    have effected := done busy
    refine setupWf_of_steady effected ((Steady.refl effected).withTap ?_ _)
    rw [resetting]
    exact (Steady.refl h).not_resetting busy

theorem setupWf_requestWrite (offset : Half) {length : Byte} {data : List Byte}
    (complete : data.length = dataBytes length) : SetupWf (s.requestWrite offset length data).1 := by
  rcases s.requestWrite_cases offset length data with ⟨_, eq⟩ | ⟨setup, least, most, inside, eq⟩ <;> rw [eq]
  · exact h
  · have uncommitted := setup_uncommitted h setup
    obtain ⟨wf, mode, -, clock, sends, resets⟩ := h
    have fits : offset.toNat + data.length ≤ Config.recordBytes := by
      rw [complete, dataBytes, if_pos ⟨least, most⟩]
      exact inside
    exact ⟨Record.wf_writeAll wf data fits, mode, fun committed => absurd committed (ne_true_of_eq_false uncommitted),
      clock, sends, resets⟩

theorem setupWf_requestCommit (busy : s.tap.state ≠ .idle) (lmark lbeat : Level) :
    SetupWf (s.requestCommit lmark lbeat).1 := by
  rcases s.requestCommit_cases lmark lbeat with ⟨-, eq⟩ | ⟨_, -, -, eq⟩ | ⟨setup, accepted, eq⟩ <;> rw [eq]
  · exact h
  · exact setupWf_of_steady h { Steady.refl h with }
  · have quiet := (Steady.refl h).not_resetting busy
    obtain ⟨wf, -, -, -, sends, -⟩ := h
    have store : (s.commitRecord lmark lbeat).setup = s.setup.commit := rfl
    refine ⟨wf, iff_of_true rfl nofun, fun _ => ?_, rfl, fun sent => ?_, fun resets => absurd resets quiet⟩
    · simpa only [store, SetupStore.commit, and_true] using accepted
    · exact absurd setup (State.ne_setup_of_valid (sends sent))

/-- Every command keeps the law of the Setup store, those of the counting side too, as it speaks of none of their
fields. -/
theorem setupWf_exec (c : Instr) : Leads SetupWf (exec c s) := by
  have k := Steady.refl h
  have stay : Leads SetupWf (.next s) := (leads_next _ _).mpr h
  have keeps : ∀ {outcome}, Leads (Steady s) outcome → Leads SetupWf outcome := fun steady =>
    steady.mono fun _ => setupWf_of_steady h
  have record : s.setup.record.wf = true := h.1
  cases c with
  | powerOnReset => exact (leads_next _ _).mpr (setupWf_blocksReset s rfl .powerOn)
  | resetPinFall =>
    show Leads SetupWf (execResetPinFall s)
    unfold execResetPinFall
    split
    · exact (leads_next _ _).mpr (setupWf_blocksReset s record .pin)
    · exact stay
  | resetEnd fmt1 fmt0 => exact keeps (steady_execResetEnd k fmt1 fmt0)
  | tselFall fall => exact keeps (steady_execTselFall k fall)
  | tselRise => exact keeps (steady_execTselRise k)
  | unknown code => exact keeps (steady_execUnknown k code)
  | status | readEntry | readOutbox | readRoster | takeNotice | readSnapshot | setupRead =>
    exact keeps (steady_reading k)
  | takeNoticeDelivered => exact keeps (steady_execTakeNoticeDelivered k)
  | releaseSnapshot => exact keeps (steady_takeRequest k (steady_releaseSnapshot k))
  | freeze => exact keeps (steady_takeRequest k (steady_requestFreeze k))
  | zero entry =>
    exact keeps (steady_takeRequest (effect := fun t => t.requestZero entry) k (steady_requestZero k entry))
  | adjust entry amount =>
    exact keeps (steady_takeRequest (effect := fun t => t.requestAdjust entry amount) k
      (steady_requestAdjust k entry amount))
  | setOutput output level =>
    exact keeps (steady_takeRequest (effect := fun t => t.requestOutput output level) k
      (steady_requestOutput k output level))
  | leave => exact keeps (steady_takeRequest k (steady_requestLeave k))
  | rejoin lmark lbeat =>
    exact keeps (steady_takeRequest (effect := fun t => t.requestRejoin lmark lbeat) k
      (steady_requestRejoin k lmark lbeat))
  | setupWrite offset length data =>
    exact leads_ite (fun complete => setupWf_takeRequest (effect := fun t => t.requestWrite offset length data) h
      (fun _ => setupWf_requestWrite h offset complete) (s.requestWrite_resetting offset length data)) fun _ => stay
  | setupCommit lmark lbeat =>
    exact setupWf_takeRequest (effect := fun t => t.requestCommit lmark lbeat) h
      (fun busy => setupWf_requestCommit h busy lmark lbeat) (s.requestCommit_resetting lmark lbeat)
  | syncLmarkFall | syncLbeatChange | stallTimerExpiry | waitLmarkRise | pulseTimerExpiry | lbeatFall =>
    exact keeps (steady_event k (k.same rfl))
  | quietTimerExpiry => exact keeps (steady_execQuietTimerExpiry k)
  | roundTimerExpiry => exact keeps (steady_event k ((steady_compose k).same rfl))
  | lbeatHalfPeriodExpiry => exact keeps (steady_execLbeatHalfPeriodExpiry k)
  | ownFrameSent ldata | frameReceived ldata | lbeatRise ldata => exact keeps (steady_event k (steady_takeRise k ldata))
  | roundClose ldata order => exact keeps (steady_event k (steady_closeRound (steady_takeRise k ldata) order))
  | lmarkFallInRound order | beatStuckExpiry order => exact keeps (steady_event k (steady_abortRound k order))
  | sampleInstant levels order =>
    refine leads_ite (fun _ => (leads_next _ _).mpr (setupWf_of_store h ?_)) fun _ => stay
    rw [s.takeSamples_frame]
    rfl
  | passageTimerExpiry pair =>
    exact leads_ite (fun _ => (leads_next _ _).mpr (setupWf_of_store h rfl)) fun _ => stay
  | tclkSamplingEdge tdi elapsed => exact keeps (steady_execTclkSamplingEdge k tdi elapsed)

end

end Sys2Proof.Machine

namespace Sys2Proof.Machine

open Sys2Proof.Safety

/-! ### The laws of the table, the watches, the outputs and the Outbox together -/

/-- The laws that a round close and a change of station state bear on, the streak's apart. -/
structure TableWf (s : State) : Prop where
  results : ResultsWf s
  values : s.replica.WithinCeilings s.settings
  validity : ValidWf s
  watches : s.valid = true → WatchesAgree s.settings s.replica s.watches
  outputs : s.setup.committed = true → ∀ o : Fin 8, OutputAgrees s.settings s.valid s.watches o s.outputs[o]
  names : s.outbox.NamesUsed s.settings
  snapshots : s.snapshots.length ≤ 4

/-- The laws of the table with that of the streak (R92). -/
structure DeviceWf (s : State) : Prop extends TableWf s where
  streak : StreakWf s

theorem lawful_iff (s : State) : Lawful s ↔ SetupWf s ∧ LinkWf s ∧ OutboxWf s ∧ NoticesWf s ∧ DeviceWf s := by
  constructor
  · rintro ⟨setup, link, outbox, notices, results, values, validity, streak, watches, outputs, names, snapshots⟩
    exact ⟨setup, link, outbox, notices,
      ⟨results, values, validity, watches, outputs, (outboxNamesUsed_iff s).mp names, snapshots⟩, streak⟩
  · rintro ⟨setup, link, outbox, notices, ⟨results, values, validity, watches, outputs, names, snapshots⟩, streak⟩
    exact ⟨setup, link, outbox, notices, results, values, validity, streak, watches, outputs,
      (outboxNamesUsed_iff s).mpr names, snapshots⟩

/-- What the laws of the table speak of beside the reception results, the Outbox and the snapshots. -/
def State.tableCore (s : State) : Bool × Record × Byte × Replica × StationState × Nat × Entry ×
    Vector Watch 32 × Vector Output 8 :=
  (s.setup.committed, s.settings, s.setup.digest, s.replica, s.member.state, s.member.streak, s.member.cursor,
    s.watches, s.outputs)

/-- What they speak of in those three. -/
def State.tableRest (s : State) : List SlotResult × Vector Int 32 × List Delta × List Entry × List Entry ×
    List Snapshot :=
  (s.frame.results, s.outbox.pending, s.outbox.flightDeltas, s.outbox.zeroList, s.outbox.flightZeros, s.snapshots)

section
variable {s t : State} (h : DeviceWf s)
include h

/-- A change of the reception results, the Outbox and the snapshots alone. -/
theorem DeviceWf.change (core : t.tableCore = s.tableCore) (results : ResultsWf t)
    (names : t.outbox.NamesUsed t.settings) (snapshots : t.snapshots.length ≤ 4) : DeviceWf t := by
  simp only [State.tableCore, Prod.mk.injEq] at core
  obtain ⟨committed, settings, digest, replica, state, streak', cursor, watches', outputs'⟩ := core
  obtain ⟨⟨-, values, validity, watches, outputs, -, -⟩, streak⟩ := h
  refine ⟨⟨results, ?_, ?_, ?_, ?_, names, snapshots⟩, ?_⟩
  · rw [settings, replica]; exact values
  · simp only [ValidWf, State.valid, settings, replica, state, cursor] at validity ⊢; exact validity
  · simp only [State.valid, settings, replica, state, watches'] at watches ⊢; exact watches
  · simp only [State.valid, committed, settings, state, watches', outputs'] at outputs ⊢; exact outputs
  · simp only [StreakWf, State.valid, settings, state, streak'] at streak ⊢; exact streak

theorem DeviceWf.resultsWf (core : t.tableCore = s.tableCore) (results : t.frame.results = s.frame.results) :
    ResultsWf t := by
  simp only [State.tableCore, Prod.mk.injEq] at core
  obtain ⟨-, settings, digest, -⟩ := core
  rw [ResultsWf, results, settings, digest]
  exact h.results

/-- A change that leaves all of this as it is. -/
theorem DeviceWf.same (core : t.tableCore = s.tableCore) (rest : t.tableRest = s.tableRest) : DeviceWf t := by
  have settings : t.settings = s.settings := (Prod.mk.inj (Prod.mk.inj core).2).1
  simp only [State.tableRest, Prod.mk.injEq] at rest
  obtain ⟨results, pending, deltas, zeroList, flightZeros, snapshots⟩ := rest
  refine h.change core (h.resultsWf core results) ⟨?_, ?_, ?_⟩ (snapshots ▸ h.snapshots) <;> rw [settings]
  · rw [pending]; exact h.names.pending
  · rw [deltas]; exact h.names.deltas
  · rw [zeroList, flightZeros]; exact h.names.zeros

/-- A change of the Outbox alone. -/
theorem DeviceWf.withOutbox (core : t.tableCore = s.tableCore) (results : t.frame.results = s.frame.results)
    (snapshots : t.snapshots = s.snapshots) (names : t.outbox.NamesUsed s.settings) : DeviceWf t := by
  have settings : t.settings = s.settings := (Prod.mk.inj (Prod.mk.inj core).2).1
  exact h.change core (h.resultsWf core results) (settings ▸ names) (snapshots ▸ h.snapshots)

end

theorem committed_of_setupWf {s : State} (wf : SetupWf s) (left : s.member.state ≠ .setup) :
    s.setup.committed = true := by
  obtain ⟨-, mode, -⟩ := wf
  exact mode.mpr left

/-- What SETUP_COMMIT asked of the record holds of the settings in force outside SETUP (R164, R169). -/
theorem accepted_of_setupWf {s : State} (wf : SetupWf s) (left : s.member.state ≠ .setup) :
    firstFailure s.settings = none := by
  obtain ⟨-, mode, holds, -⟩ := wf
  have committed := mode.mpr left
  rw [State.settings_of_committed committed]
  exact (holds committed).1

/-- The presets in force lie within their ceilings (R166), as without a record no entry is LEVEL. -/
theorem presets_of_setupWf {s : State} (wf : SetupWf s) (e : Entry) (level : s.settings.kind e = .level) :
    s.settings.preset e ≤ s.settings.ceiling e := by
  by_cases setup : s.member.state = .setup
  · rw [State.settings_of_uncommitted (setup_uncommitted wf setup)] at level
    exact nomatch level
  · exact ((entrySettings_of_accepted (accepted_of_setupWf wf setup) e).2.1 level).2

/-- The limits of a watch in force stand apart (R166). -/
theorem limitsApart_of_setupWf {s : State} (wf : SetupWf s) (left : s.member.state ≠ .setup) (e : Entry)
    (watched : s.settings.watched e = true) : s.settings.watchLow e < s.settings.watchHigh e :=
  ((entrySettings_of_accepted (accepted_of_setupWf wf left) e).2.2 watched).1

/-- The first used entry from any start on is a used one, as an accepted record uses one (R86, R166). -/
theorem Record.kind_nextUsed {m : Record} {used : Entry} (isUsed : m.kind used ≠ .off) (start : Entry) :
    m.kind (m.nextUsed start) ≠ .off := by
  unfold Record.nextUsed
  cases found : (entriesFrom start).find? fun e => decide (m.kind e ≠ .off) with
  | some e => simpa using List.find?_some found
  | none =>
    have none := List.find?_eq_none.mp found used (mem_entriesFrom start used)
    simp [isUsed] at none

theorem kind_nextUsed_of_setupWf {s : State} (wf : SetupWf s) (left : s.member.state ≠ .setup) (start : Entry) :
    s.settings.kind (s.settings.nextUsed start) ≠ .off := by
  obtain ⟨used, isUsed⟩ := exists_used_of_accepted (accepted_of_setupWf wf left)
  exact Record.kind_nextUsed isUsed start

/-! ### Changes of station state -/

section
variable {s : State} (wf : SetupWf s) (h : TableWf s) (left : s.member.state ≠ .setup)
include wf h left

/-- Entry to PARKED, INCOMPATIBLE or FAULT (R20, R24, R131). -/
theorem deviceWf_enterStale {entered : StationState} (keeps : keepsStale entered = true) :
    DeviceWf (s.enterStale entered) := by
  have invalid : entered.holdsValid = false := by cases entered <;> first | rfl | exact nomatch keeps
  have stale : (s.enterStale entered).valid = false := invalid
  refine ⟨⟨nofun, h.values, ⟨keeps.symm, ?_⟩, ?_, fun _ o => ?_, h.names, h.snapshots⟩, ?_, ?_⟩
  · exact fun valid => absurd valid (ne_true_of_eq_false stale)
  · exact fun valid => absurd valid (ne_true_of_eq_false stale)
  · rw [stale]
    exact outputAgrees_withoutValidity (h.outputs (committed_of_setupWf wf left) o) s.watches
  · exact fun valid => absurd valid (ne_true_of_eq_false stale)
  · rintro (listen : entered = .listen)
    rw [listen] at keeps
    exact nomatch keeps

/-- Entry to LISTEN from a state with a committed record (R19, R82, R131). -/
theorem deviceWf_enterListen : DeviceWf s.enterListen := by
  refine ⟨⟨h.results, Replica.withinCeilings_empty _, ⟨rfl, nofun⟩, nofun, fun _ o => ?_, h.names, h.snapshots⟩,
    nofun, fun _ => rfl⟩
  exact outputAgrees_withoutValidity (h.outputs (committed_of_setupWf wf left) o) _

/-- What a gain of validity leaves, the table complete (R124, R132). -/
theorem tableWf_gainValidity {r : Replica} {c : Membership} (invalid : s.valid = false)
    (valid : c.state.holdsValid = true) (values : r.WithinCeilings s.settings) (fresh : r.stale = false)
    (csKnown : r.csKnown = true) (known : ∀ e : Entry, s.settings.kind e ≠ .off → r.entries[e].known = true)
    (cursor : s.settings.kind c.cursor ≠ .off) :
    TableWf (State.gainValidity { s with replica := r, member := c }) := by
  have settings : (State.gainValidity { s with replica := r, member := c }).settings = s.settings :=
    State.gainValidity_settings _
  have gained : (State.gainValidity { s with replica := r, member := c }).valid = true := valid
  refine ⟨?_, ?_, ⟨?_, fun _ => ⟨?_, ?_, ?_⟩⟩, fun _ => ?_, fun _ o => ?_, ?_, ?_⟩
  · exact h.results
  · exact values
  · have aside : keepsStale c.state = false := by
      cases state : c.state <;> rw [state] at valid <;> first | rfl | exact nomatch valid
    exact fresh.trans aside.symm
  · exact csKnown
  · exact known
  · exact cursor
  · rw [settings, State.gainValidity_replica, State.gainValidity_watches]
    exact watchesAgree_silentWatches (limitsApart_of_setupWf wf left) r s.watches
  · have agrees := h.outputs (committed_of_setupWf wf left) o
    rw [invalid] at agrees
    rw [gained, settings, State.gainValidity_watches, State.gainValidity_outputs]
    exact outputAgrees_withValidity agrees
  · exact h.names
  · exact h.snapshots

end

end Sys2Proof.Machine

namespace Sys2Proof.Machine

open Sys2Proof.Safety

/-! ### The laws through the outcome of a round -/

theorem State.appliesRound_valid {s : State} {o : RoundOutcome} (applies : s.appliesRound o = true) :
    s.valid = true := by
  simp only [State.appliesRound, Bool.and_eq_true] at applies
  obtain ⟨⟨valid, -⟩, -⟩ := applies
  exact valid

theorem State.ne_setup_of_listen {s : State} (listen : s.member.state = .listen) : s.member.state ≠ .setup := by
  rw [listen]; decide

theorem State.valid_iff {s : State} : s.valid = true ↔ s.member.state = .joining ∨ s.member.state = .member := by
  rw [State.valid]
  cases s.member.state <;> decide

theorem State.invalid_of_listen {s : State} (listen : s.member.state = .listen) : s.valid = false := by
  rw [State.valid, listen]; rfl

/-- A frame with the own digest comes from a result that R57 allows (R14, R47). -/
theorem carryInRange_of_resultsWf {s : State} (results : ResultsWf s) {f : Frame}
    (heard : f ∈ ownDigestFrames s.frame.results) :
    carryInRange s.settings f.carryIndex f.carryValue = true := by
  obtain ⟨result, received, named⟩ := List.mem_filterMap.mp heard
  have sound := results result received
  cases result with
  | valid g foreign =>
    cases foreign with
    | true => exact nomatch named
    | false =>
      obtain rfl : g = f := Option.some.inj named
      exact (Bool.and_eq_true _ _ ▸ sound).1
  | silent | own | invalid => exact nomatch named

/-- A retirement, a return or nothing keeps the Outbox from naming an OFF entry (R69, R70). -/
theorem namesUsed_outboxAtClose {s : State} (names : s.outbox.NamesUsed s.settings) (o : RoundOutcome)
    (cs : Option Half) : (s.outboxAtClose o cs).1.NamesUsed s.settings := by
  rcases s.outboxAtClose_cases o cs with ⟨-, -, eq⟩ | eq | eq <;> rw [eq]
  · exact names.retire
  · exact names.giveBack cs
  · exact names

/-- The Snapshot queue stays within its depth (R137). -/
theorem length_snapshotAtClose {s : State} (within : s.snapshots.length ≤ 4) (o : RoundOutcome) (r : Replica) :
    (s.snapshotAtClose o r).1.length ≤ 4 := by
  unfold State.snapshotAtClose
  split
  · dsimp only [storeSnapshot]
    split
    · next room => simpa [Config.snapshotDepth] using room
    · exact within
  · exact within

section
variable {s : State} (wf : SetupWf s) (h : TableWf s)
include wf h

theorem withinCeilings_replicaAtClose (o : RoundOutcome) : (s.replicaAtClose o).1.WithinCeilings s.settings := by
  rcases s.replicaAtClose_cases o with ⟨-, eq⟩ | ⟨-, eq⟩ | ⟨-, eq⟩ | ⟨-, -, eq⟩ <;> rw [eq]
  · exact h.values.applyRound (presets_of_setupWf wf) _
  · exact h.values
  · exact Replica.withinCeilings_empty _
  · exact h.values.adopt (presets_of_setupWf wf) fun f heard => carryInRange_of_resultsWf h.results heard

omit wf in
/-- A close leaves the stale flag as the station state has it (R20). -/
theorem stale_replicaAtClose (o : RoundOutcome) : (s.replicaAtClose o).1.stale = keepsStale s.member.state := by
  obtain ⟨stale, -⟩ := h.validity
  rw [← stale]
  rcases s.replicaAtClose_cases o with ⟨-, eq⟩ | ⟨-, eq⟩ | ⟨listen, eq⟩ | ⟨-, -, eq⟩ <;> rw [eq]
  · exact (s.replica.applyAll_flags s.settings false s.roundBusiness).2.2.1
  · rw [stale, listen]; rfl
  · exact s.replica.adopt_stale s.settings _

/-- A valid replica stays known throughout, and the cursor moves to a used entry (R5, R86). -/
theorem known_replicaAtClose (valid : s.valid = true) (o : RoundOutcome) :
    (s.replicaAtClose o).1.csKnown = true ∧
    (∀ e : Entry, s.settings.kind e ≠ .off → (s.replicaAtClose o).1.entries[e].known = true) ∧
    s.settings.kind (s.memberAtClose o).cursor ≠ .off := by
  obtain ⟨-, known⟩ := h.validity
  obtain ⟨csKnown, entries, cursor⟩ := known valid
  have notListen : s.member.state ≠ .listen := fun listen =>
    Bool.false_ne_true ((State.invalid_of_listen listen).symm.trans valid)
  have moved : s.settings.kind (s.memberAtClose o).cursor ≠ .off := by
    simp only [State.memberAtClose]
    split
    · exact kind_nextUsed_of_setupWf wf (State.ne_setup_of_valid valid) _
    · exact cursor
  rcases s.replicaAtClose_cases o with ⟨-, eq⟩ | ⟨-, eq⟩ | ⟨listen, -⟩ | ⟨listen, -⟩
  · obtain ⟨-, kept, -, keptEntries⟩ := s.replica.applyAll_flags s.settings false s.roundBusiness
    rw [eq]
    exact ⟨kept.trans csKnown, fun e used => (keptEntries e).trans (entries e used), moved⟩
  · rw [eq]
    exact ⟨csKnown, entries, moved⟩
  all_goals exact absurd listen notListen

/-- The watches are evaluated on the values that the close leaves (R125). -/
theorem watchesAgree_watchesAtClose (valid : s.valid = true) (o : RoundOutcome) :
    WatchesAgree s.settings (s.replicaAtClose o).1 (s.watchesAtClose o (s.replicaAtClose o).1) := by
  unfold State.watchesAtClose
  split
  · exact watchesAgree_evaluateWatches (limitsApart_of_setupWf wf (State.ne_setup_of_valid valid)) _ _
  · next unapplied =>
    rcases s.replicaAtClose_cases o with ⟨applies, -⟩ | ⟨-, eq⟩ | ⟨listen, -⟩ | ⟨listen, -⟩
    · exact absurd applies unapplied
    · rw [eq]
      exact h.watches valid
    all_goals exact absurd valid (ne_true_of_eq_false (State.invalid_of_listen listen))

omit wf in
/-- Where no watch state moves, no output does; watch states move at a valid replica alone (R129, R130). -/
theorem outputAgrees_atClose (committed : s.setup.committed = true) (o : RoundOutcome) (r : Replica) (out : Fin 8) :
    OutputAgrees s.settings s.valid (s.watchesAtClose o r) out
      (outputsAfterCommit s.settings s.watches (s.watchesAtClose o r) s.outputs)[out] := by
  have agrees := h.outputs committed out
  unfold State.watchesAtClose
  split
  · next applies =>
    rw [State.appliesRound_valid applies] at agrees ⊢
    exact outputAgrees_afterCommit agrees
  · rw [outputsAfterCommit_of_unmoved s.outputs (.inr rfl)]
    exact agrees

/-- The outcome of a round keeps the laws of the table (R39, R80). -/
theorem tableWf_takeOutcome (order : List NoticeBlock) : TableWf (s.takeOutcome order) where
  results := h.results
  values := withinCeilings_replicaAtClose wf h _
  validity := ⟨stale_replicaAtClose h _, fun valid => known_replicaAtClose wf h valid _⟩
  watches valid := watchesAgree_watchesAtClose wf h valid _
  outputs committed o := outputAgrees_atClose h committed _ _ o
  names := namesUsed_outboxAtClose h.names _ _
  snapshots := length_snapshotAtClose h.snapshots _ _

end

/-! ### The change of station state that a close calls for -/

section
variable {s : State} {o : RoundOutcome} {r : Replica} {c : Membership}

theorem State.complete_of_caughtUp (due : s.changeDue o r c = some .caughtUp) : r.complete s.settings = true := by
  unfold State.changeDue at due
  cases state : s.member.state <;> rw [state] at due <;> simp only [reduceCtorEq] at due <;>
    (repeat' split at due) <;> simp_all

/-- A station that stays in JOINING or MEMBER, or joins, has a streak below its limit (R92). -/
theorem State.streak_lt_of_due (due : s.changeDue o r c = none ∨ s.changeDue o r c = some .joined)
    (valid : s.valid = true) : c.streak < s.settings.objectionLimit := by
  by_contra reached
  rcases State.valid_iff.mp valid with state | state
  all_goals
    simp only [State.changeDue, state, if_pos (not_lt.mp reached)] at due
    split at due <;> simp at due

end

theorem Replica.complete_iff (m : Record) (r : Replica) : r.complete m = true ↔
    r.csKnown = true ∧ ∀ e : Entry, m.kind e ≠ .off → r.entries[e].known = true := by
  simp only [Replica.complete, Bool.and_eq_true, List.all_eq_true, List.mem_finRange, true_imp_iff, Bool.or_eq_true,
    decide_eq_true_eq, or_iff_not_imp_left, ne_eq]

section
variable {s : State} (wf : SetupWf s) (h : TableWf s)
include wf h

/-- A listener whose table is complete joins, its streak at 0 (R85, R86, R92). -/
theorem deviceWf_enterJoining (listen : s.member.state = .listen) (streak : s.member.streak = 0)
    (complete : s.replica.complete s.settings = true) : DeviceWf s.enterJoining := by
  have left := State.ne_setup_of_listen listen
  obtain ⟨csKnown, known⟩ := (Replica.complete_iff _ _).mp complete
  obtain ⟨stale, -⟩ := h.validity
  rw [listen] at stale
  obtain ⟨-, -, objections, -⟩ := headerSettings_of_accepted (accepted_of_setupWf wf left)
  refine ⟨tableWf_gainValidity wf h left (State.invalid_of_listen listen) rfl h.values stale csKnown known
    (kind_nextUsed_of_setupWf wf left _), fun _ => ?_, nofun⟩
  rw [State.enterJoining_member, State.enterJoining_settings]
  show s.member.streak < _
  omega

/-- A listener that founds the table is a MEMBER with a valid replica (R18, R88, R92). -/
theorem deviceWf_foundTable (listen : s.member.state = .listen) (streak : s.member.streak = 0) :
    DeviceWf s.foundTable := by
  have left := State.ne_setup_of_listen listen
  obtain ⟨-, -, objections, -⟩ := headerSettings_of_accepted (accepted_of_setupWf wf left)
  refine ⟨tableWf_gainValidity wf h left (State.invalid_of_listen listen) rfl
    (h.values.found (presets_of_setupWf wf)) rfl rfl (fun e used => ?_) (kind_nextUsed_of_setupWf wf left _),
    fun _ => ?_, nofun⟩
  · simp [Replica.found, used]
  · rw [State.foundTable_member, State.foundTable_settings]
    show s.member.streak < _
    omega

end

/-- A JOINING station becomes MEMBER with its table as it is (R90). -/
theorem deviceWf_join {s : State} (h : TableWf s) (joining : s.member.state = .joining)
    (streak : s.member.streak < s.settings.objectionLimit) :
    DeviceWf { s with member := { s.member with state := .member } } := by
  have valid : s.valid = true := by rw [State.valid, joining]; rfl
  obtain ⟨stale, known⟩ := h.validity
  refine ⟨⟨h.results, h.values, ⟨?_, fun _ => known valid⟩, fun _ => h.watches valid, fun committed o => ?_, h.names,
    h.snapshots⟩, fun _ => streak, nofun⟩
  · rw [joining] at stale
    exact stale
  · have agrees := h.outputs committed o
    rw [valid] at agrees
    exact agrees

/-- A notice posted touches no law of the table. -/
theorem DeviceWf.postChange {s : State} (h : DeviceWf s) (cause : Cause) (left : StationState) :
    DeviceWf (s.postChange cause left) := h.same rfl rfl

/-- In LISTEN a close leaves the streak at 0, as nothing was sent (R33, R91). -/
theorem streak_memberAtClose {s : State} (wf : SetupWf s) (h : StreakWf s) (listen : s.member.state = .listen) :
    (s.memberAtClose s.outcome).streak = 0 := by
  obtain ⟨-, -, -, -, sends, -⟩ := wf
  have silent : s.transmits = false := eq_false_of_ne_true fun sent =>
    Bool.false_ne_true ((State.invalid_of_listen listen).symm.trans (sends sent))
  have unsent : s.outcome.ownPresent = false := by simp [State.outcome, silent]
  simp only [State.memberAtClose, streakAtClose, unsent]
  exact h.2 listen

/-- The close of a round: the outcome taken, and at most one change of station state (R39, R80). -/
theorem deviceWf_closeRound {s : State} (wf : SetupWf s) (h : DeviceWf s) (order : List NoticeBlock) :
    DeviceWf (s.closeRound order) := by
  have taken := tableWf_takeOutcome wf h.toTableWf order
  have takenWf : SetupWf (s.takeOutcome order) := setupWf_of_steady wf (steady_takeOutcome (Steady.refl wf) order)
  have state : (s.takeOutcome order).member.state = s.member.state := rfl
  rcases s.closeRound_cases order with ⟨due, eq⟩ | ⟨cause, due, eq⟩ <;> rw [eq]
  · exact ⟨taken, fun valid => State.streak_lt_of_due (s := s) (.inl due) valid, fun listen =>
      streak_memberAtClose wf h.streak listen⟩
  · rcases s.changeDue_causes _ _ _ due with ⟨listen, rfl | rfl | rfl⟩ | ⟨joining, rfl | rfl | rfl⟩ |
      ⟨member, rfl | rfl | rfl⟩
    · exact (deviceWf_enterStale takenWf taken (by simp [state, listen]) rfl).postChange _ _
    · exact (deviceWf_enterJoining takenWf taken listen (streak_memberAtClose wf h.streak listen)
        (State.complete_of_caughtUp (s := s) due)).postChange _ _
    · exact (deviceWf_foundTable takenWf taken listen (streak_memberAtClose wf h.streak listen)).postChange _ _
    · exact (deviceWf_enterStale takenWf taken (by simp [state, joining]) rfl).postChange _ _
    · exact (deviceWf_enterListen takenWf taken (by simp [state, joining])).postChange _ _
    · refine (deviceWf_join taken joining (State.streak_lt_of_due (s := s) (.inr due) ?_)).postChange _ _
      rw [State.valid, joining]; rfl
    · exact (deviceWf_enterStale takenWf taken (by simp [state, member]) rfl).postChange _ _
    · exact (deviceWf_enterListen takenWf taken (by simp [state, member])).postChange _ _
    · exact (deviceWf_enterStale takenWf taken (by simp [state, member]) rfl).postChange _ _

end Sys2Proof.Machine

namespace Sys2Proof.Machine

open Sys2Proof.Safety

/-! ### One sampled bit -/

/-- What the reception of a slot gives is a result that R57 and R58 allow. -/
theorem resultSound_receive (m : Record) (digest : Byte) (slot : Nat) (bits : List Bool) :
    resultSound m digest (receive m digest slot bits) = true := by
  cases received : receive m digest slot bits with
  | valid f foreign =>
    obtain ⟨-, rfl, -, valid⟩ := (receive_eq_valid_iff m digest slot bits f foreign).mp received
    obtain ⟨-, -, -, -, -, -, used, within, -⟩ := (Frame.fieldsValid_iff m slot f).mp valid
    simp [resultSound, (carryInRange_iff m _ _).mpr ⟨used, within⟩]
  | silent | own | invalid => rfl

theorem resultSound_slotEnded {s : State} {result : SlotResult} (ended : s.slotEnded = some result) :
    resultSound s.settings s.setup.digest result = true := by
  unfold State.slotEnded at ended
  split at ended
  · split at ended <;> cases ended <;> rfl
  · split at ended
    · split at ended <;> cases ended
      · rfl
      · exact resultSound_receive _ _ _ _
    · exact nomatch ended

section
variable {s : State} (wf : SetupWf s) (h : DeviceWf s)
include h

theorem deviceWf_recordBit (ldata : Level) : DeviceWf (s.recordBit ldata) := by
  have results : (s.recordBit ldata).frame.results = s.frame.results := by
    unfold State.recordBit
    dsimp only
    split <;> rfl
  refine h.same rfl ?_
  simp [State.tableRest, results]

theorem deviceWf_endSlot {result : SlotResult} (sound : resultSound s.settings s.setup.digest result = true) :
    DeviceWf (s.endSlot result) := by
  refine h.change rfl (fun x held => ?_) h.names h.snapshots
  rcases List.mem_append.mp held with before | now
  · exact h.results x before
  · rw [List.mem_singleton.mp now]
    exact sound

include wf

/-- A strike touches no law; a change to FAULT returns what is in flight and stands aside (R54, R72, R96). -/
theorem deviceWf_takeCollision (sends : s.transmits = true) (position : Nat) : DeviceWf (s.takeCollision position) := by
  rcases s.takeCollision_cases position with ⟨-, eq⟩ | ⟨-, eq⟩ <;> rw [eq]
  · exact h.same rfl rfl
  · have left : s.member.state ≠ .setup := State.ne_setup_of_valid ((Steady.refl wf).sends sends)
    have back : DeviceWf { s with outbox := (s.outbox.giveBack s.noticeCs).1 } :=
      h.withOutbox rfl rfl rfl (h.names.giveBack _)
    have wfBack : SetupWf { s with outbox := (s.outbox.giveBack s.noticeCs).1 } := wf
    exact (deviceWf_enterStale (entered := .fault) wfBack back.toTableWf left rfl).same rfl rfl

theorem deviceWf_sampleSlotBit (ldata : Level) : DeviceWf (s.sampleSlotBit ldata) := by
  have compared : DeviceWf (if s.firstCollision ldata then
      (s.recordBit ldata).takeCollision (s.recordBit ldata).link.bit else s.recordBit ldata) := by
    split
    · next collides =>
      refine deviceWf_takeCollision (setupWf_of_steady wf (steady_recordBit (Steady.refl wf) ldata))
        (deviceWf_recordBit h ldata) ?_ _
      rw [s.recordBit_transmits]
      exact State.transmits_of_firstCollision collides
    · exact deviceWf_recordBit h ldata
  rcases s.sampleSlotBit_cases ldata with eq | ⟨-, result, ended, eq⟩ <;> rw [eq]
  · exact compared
  · exact deviceWf_endSlot compared (resultSound_slotEnded ended)

theorem deviceWf_takeRise (ldata : Level) : DeviceWf (s.takeRise ldata) := by
  rcases s.takeRise_cases ldata with ⟨-, eq⟩ | ⟨-, eq⟩ <;> rw [eq]
  · have risen : DeviceWf { s with link := s.link.takeRise s.settings } := h.same rfl rfl
    exact deviceWf_sampleSlotBit (s := { s with link := s.link.takeRise s.settings }) wf risen ldata
  · exact h.same rfl rfl

end

/-! ### Requests -/

section
variable {s : State} (wf : SetupWf s) (h : DeviceWf s)
include h

theorem deviceWf_addPending {e : Entry} (used : s.settings.kind e ≠ .off) (amount : Int) :
    DeviceWf (s.addPending e amount) :=
  h.withOutbox rfl rfl rfl (h.names.add used amount)

theorem deviceWf_requestZero (entry : Byte) : DeviceWf (s.requestZero entry).1 := by
  rcases s.requestZero_cases entry with ⟨_, eq⟩ | ⟨e, -, -, used, -, -, -, eq⟩ <;> rw [eq]
  · exact h
  · exact h.withOutbox rfl rfl rfl (h.names.request used)

theorem deviceWf_requestAdjust (entry : Byte) (amount : Half) : DeviceWf (s.requestAdjust entry amount).1 := by
  rcases s.requestAdjust_cases entry amount with ⟨_, eq⟩ | ⟨e, -, -, used, eq⟩ <;> rw [eq]
  · exact h
  · exact deviceWf_addPending h used _

theorem deviceWf_requestFreeze : DeviceWf s.requestFreeze.1 := by
  rcases s.requestFreeze_cases with ⟨-, eq⟩ | ⟨-, eq⟩ <;> rw [eq]
  · exact h
  · exact h.same rfl rfl

theorem deviceWf_requestLeave : DeviceWf s.requestLeave.1 := by
  rcases s.requestLeave_cases with ⟨-, eq⟩ | ⟨-, eq⟩ <;> rw [eq]
  · exact h
  · exact h.same rfl rfl

theorem deviceWf_releaseSnapshot : DeviceWf s.releaseSnapshot.1 := by
  have within := h.snapshots
  unfold State.releaseSnapshot
  split
  · exact h
  · next oldest rest held =>
    rw [held, List.length_cons] at within
    exact h.change rfl (h.resultsWf rfl rfl) h.names (Nat.le_of_succ_le within)

/-- SET_OUTPUT writes a LOCAL latch and its pin together (R134). -/
theorem deviceWf_requestOutput (output level : Byte) : DeviceWf (s.requestOutput output level).1 := by
  rcases s.requestOutput_cases output level with ⟨_, eq⟩ | ⟨o, l, -, -, -, source, eq⟩ <;> rw [eq]
  · exact h
  · refine ⟨⟨h.results, h.values, h.validity, h.watches, fun committed x => ?_, h.names, h.snapshots⟩, h.streak⟩
    have agrees := h.outputs committed x
    by_cases own : o = x
    · subst own
      obtain ⟨-, latched, -⟩ := agrees
      obtain ⟨-, pulse⟩ := latched source
      show OutputAgrees s.settings s.valid s.watches o (s.outputs.set o _)[o]
      rw [Fin.getElem_fin, Vector.getElem_set_self]
      exact ⟨by simp [source], fun _ => ⟨rfl, pulse⟩, by simp [source], by simp [source], by simp [source]⟩
    · have ne : o.val ≠ x.val := fun eq => own (Fin.ext eq)
      show OutputAgrees s.settings s.valid s.watches x (s.outputs.set o _)[x]
      rw [Fin.getElem_fin, Vector.getElem_set_ne o.isLt x.isLt ne]
      exact agrees

include wf

theorem deviceWf_requestRejoin (lmark lbeat : Level) : DeviceWf (s.requestRejoin lmark lbeat).1 := by
  rcases s.requestRejoin_cases lmark lbeat with eq | ⟨stale, eq⟩ <;> rw [eq]
  · exact h
  · have left : s.member.state ≠ .setup := by rcases stale with state | state <;> rw [state] <;> decide
    exact (deviceWf_enterListen wf h.toTableWf left).same rfl rfl

/-- SETUP_WRITE reaches a record that no setting is read from (R1, R162). -/
theorem deviceWf_requestWrite (offset : Half) (length : Byte) (data : List Byte) :
    DeviceWf (s.requestWrite offset length data).1 := by
  rcases s.requestWrite_cases offset length data with ⟨_, eq⟩ | ⟨setup, -, -, -, eq⟩ <;> rw [eq]
  · exact h
  · have uncommitted := setup_uncommitted wf setup
    have settings : State.settings { s with
        setup := { s.setup with record := s.setup.record.writeAll offset.toNat data } } = s.settings := by
      simp [State.settings, uncommitted]
    refine h.same ?_ rfl
    simp only [State.tableCore, settings]

/-- SETUP_COMMIT puts a record in force at a station with no reception results, an Outbox that names nothing, and an
empty replica (R19, R127, R169). -/
theorem deviceWf_requestCommit (link : LinkWf s) (lmark lbeat : Level) : DeviceWf (s.requestCommit lmark lbeat).1 := by
  rcases s.requestCommit_cases lmark lbeat with ⟨-, eq⟩ | ⟨_, -, -, eq⟩ | ⟨setup, -, eq⟩ <;> rw [eq]
  · exact h
  · exact h.same rfl rfl
  · have allOff (e : Entry) : s.settings.kind e = .off := by
      rw [State.settings_of_uncommitted (setup_uncommitted wf setup)]
      rfl
    obtain ⟨off, -, -, -, -, -, results⟩ := link
    have nothing := results (off.mpr (by rw [setup]; rfl))
    refine ⟨⟨fun result held => ?_, Replica.withinCeilings_empty _, ⟨rfl, nofun⟩, nofun, fun _ o => ?_,
      h.names.of_allOff allOff _, h.snapshots⟩, nofun, fun _ => rfl⟩
    · change result ∈ s.frame.results at held
      rw [nothing] at held
      exact nomatch held
    · show OutputAgrees s.setup.record false _ o
        (outputsWithoutValidity s.setup.record (outputsAtCommit s.setup.record s.outputs))[o]
      rw [outputsWithoutValidity_outputsAtCommit, Fin.getElem_fin, Vector.getElem_ofFn]
      cases source : s.setup.record.outputSource o <;> simp [OutputAgrees, source]

end

/-! ### Sample instants -/

/-- The map that one event adds names a used entry, in a record that passed its checks (R110, R117, R167). -/
theorem deviceWf_addMap {s : State} (h : DeviceWf s) {map : CountMap}
    (used : ∀ e, map.entry = some e → s.settings.kind e ≠ .off) : DeviceWf (s.addMap map) := by
  rcases s.addMap_cases map with ⟨-, eq⟩ | ⟨e, named, eq⟩ <;> rw [eq]
  · exact h
  · exact deviceWf_addPending h (used e named) _

/-- A used input stands outside SETUP alone (R1, R108). -/
theorem ne_setup_of_usedInput {s : State} (wf : SetupWf s) {i : Fin 8} (used : s.settings.inputMode i ≠ .unused) :
    s.member.state ≠ .setup := fun setup => used (by
  rw [State.settings_of_uncommitted (setup_uncommitted wf setup)]
  exact Record.inputMode_nil i)

theorem deviceWf_takePairChange {s : State} (wf : SetupWf s) (h : DeviceWf s) {i : Fin 8}
    (pair : s.settings.inputMode i = .pairA ∨ s.settings.inputMode i = .pairB) (now : Level) :
    DeviceWf (s.takePairChange i now) := by
  have left : s.member.state ≠ .setup := ne_setup_of_usedInput wf (i := i) (by
    rcases pair with mode | mode <;> simp [mode])
  obtain ⟨modeA, -⟩ := (Record.pairInUse_iff _ _).mp (State.pairInUse_of_pair wf pair)
  have maps := mapSettings_of_accepted (accepted_of_setupWf wf left) (pairA (pairOf i))
  have moved (d : Detector) : DeviceWf { s with detectors := s.detectors.set (pairOf i) d } := h.same rfl rfl
  unfold State.takePairChange
  dsimp only
  split
  · exact moved _
  · exact deviceWf_addMap (moved _) fun e named => (maps _ (.inl rfl) (.inr modeA) e named).1
  · exact deviceWf_addMap (moved _) fun e named => (maps _ (.inr ⟨modeA, rfl⟩) (.inr modeA) e named).1

theorem deviceWf_takeInputEvent {s : State} (wf : SetupWf s) (h : DeviceWf s) (i : Fin 8) :
    DeviceWf (s.takeInputEvent i) := by
  unfold State.takeInputEvent
  dsimp only
  split
  · next mode =>
    have left : s.member.state ≠ .setup := ne_setup_of_usedInput wf (i := i) (by simp [mode])
    split
    · refine deviceWf_addMap h fun e named => ?_
      exact (mapSettings_of_accepted (accepted_of_setupWf wf left) i _ (.inl rfl) (.inl mode) e named).1
    · exact h
  · next mode => exact deviceWf_takePairChange wf h (.inl mode) _
  · next mode => exact deviceWf_takePairChange wf h (.inr mode) _
  · exact h

theorem setupWf_takeInputEvent {s : State} (wf : SetupWf s) (i : Fin 8) : SetupWf (s.takeInputEvent i) :=
  State.takeInputEvent_induction (P := SetupWf) (fun _ _ ht => setupWf_of_store ht rfl)
    (fun _ _ _ ht => setupWf_of_store ht rfl) wf

theorem deviceWf_takeSamples {s : State} (wf : SetupWf s) (h : DeviceWf s) (levels : Byte) (order : List (Fin 8)) :
    DeviceWf (s.takeSamples levels order) := by
  have both : SetupWf (s.takeSamples levels order) ∧ DeviceWf (s.takeSamples levels order) :=
    State.takeSamples_induction (P := fun t => SetupWf t ∧ DeviceWf t) levels order s
      (fun _ i ht => ⟨setupWf_takeInputEvent ht.1 i, deviceWf_takeInputEvent ht.1 ht.2 i⟩)
      ⟨setupWf_of_store wf rfl, h.same rfl rfl⟩
  exact both.2

/-! ### Every command -/

theorem deviceWf_blocksReset (s : State) (record : Record) (kind : ResetKind) : DeviceWf (s.blocksReset record kind) :=
  ⟨⟨nofun, Replica.withinCeilings_empty _, ⟨rfl, nofun⟩, nofun, nofun, Outbox.namesUsed_empty _, Nat.zero_le _⟩,
    nofun, nofun⟩

section
variable {s : State} (wf : SetupWf s) (h : DeviceWf s)
include h

theorem leads_deviceWf_self : Leads DeviceWf (.next s) := (leads_next _ _).mpr h

theorem deviceWf_takeRequest {code : Byte} {operands : List Byte} {effect : State → State × Answer}
    (done : DeviceWf (effect s).1) : Leads DeviceWf (takeRequest code operands effect s) :=
  leads_takeRequest h (fun _ _ ht => ht.same rfl rfl) done

/-- An event that leads to `t` where it can arise, and else leaves the station as it is. -/
theorem deviceWf_event {c : Prop} [Decidable c] {t : State} (taken : c → DeviceWf t) :
    Leads DeviceWf (if c then .next t else .next s) :=
  leads_ite (fun arises => (leads_next _ _).mpr (taken arises)) fun _ => leads_deviceWf_self h

theorem deviceWf_execUnknown (code : Byte) : Leads DeviceWf (execUnknown code s) := by
  unfold execUnknown
  split
  · exact deviceWf_takeRequest h h
  · exact leads_deviceWf_self h

theorem deviceWf_idle : DeviceWf s.idle := by
  rcases s.idle_cases with ⟨-, eq⟩ | ⟨-, eq⟩ <;> rw [eq]
  · exact h.same rfl rfl
  · exact h

theorem deviceWf_execResetPinFall : Leads DeviceWf (execResetPinFall s) := by
  unfold execResetPinFall
  split
  · exact (leads_next _ _).mpr (deviceWf_blocksReset s _ _)
  · exact leads_deviceWf_self h

theorem deviceWf_execResetEnd (fmt1 fmt0 : Level) : Leads DeviceWf (execResetEnd fmt1 fmt0 s) := by
  unfold execResetEnd
  split
  · exact leads_deviceWf_self h
  · exact (leads_next _ _).mpr (h.same rfl rfl)

theorem deviceWf_execTselFall (fall : SelectFall) : Leads DeviceWf (execTselFall fall s) := by
  unfold execTselFall
  refine leads_ite (fun _ => ?_) fun _ => leads_ite (fun _ => ?_) fun _ => leads_ite (fun _ => ?_) fun _ => ?_
  all_goals exact (leads_next _ _).mpr (h.same rfl rfl)

theorem deviceWf_execTselRise : Leads DeviceWf (execTselRise s) := by
  unfold execTselRise
  refine leads_ite (fun _ => ?_) fun _ => leads_ite (fun _ => ?_) fun _ => ?_
  all_goals exact (leads_next _ _).mpr (h.same rfl rfl)

theorem deviceWf_execTclkSamplingEdge (tdi : Level) (elapsed : Nat) :
    Leads DeviceWf (execTclkSamplingEdge tdi elapsed s) := by
  simp only [execTclkSamplingEdge, State.withEdge_eq]
  split
  case h_5 => split <;> exact (leads_next _ _).mpr (h.same rfl rfl)
  all_goals exact (leads_next _ _).mpr (h.same rfl rfl)

theorem deviceWf_execTakeNoticeDelivered : Leads DeviceWf (execTakeNoticeDelivered s) := by
  unfold execTakeNoticeDelivered
  split <;> exact (leads_next _ _).mpr (h.same rfl rfl)

theorem deviceWf_execQuietTimerExpiry : Leads DeviceWf (execQuietTimerExpiry s) := by
  refine leads_ite (fun _ => ?_) (fun _ => leads_deviceWf_self h)
  split <;> exact (leads_next _ _).mpr (h.same rfl rfl)

theorem deviceWf_execLbeatHalfPeriodExpiry : Leads DeviceWf (execLbeatHalfPeriodExpiry s) := by
  refine leads_ite (fun _ => ?_) (fun _ => leads_deviceWf_self h)
  split <;> exact (leads_next _ _).mpr (h.same rfl rfl)

theorem deviceWf_compose : DeviceWf s.compose := by
  unfold State.compose
  split
  · refine h.withOutbox ?_ rfl rfl (h.names.afterComposition _)
    simp only [State.tableCore, State.settings]
  · exact h

/-- An abort discards the reception results and returns what is in flight (R42, R71). -/
theorem deviceWf_abortRound (order : List NoticeBlock) : DeviceWf (s.abortRound order) := by
  refine h.change rfl ?_ ?_ h.snapshots
  · rw [ResultsWf, State.abortRound_frame]
    exact nofun
  · rw [State.abortRound_outbox]
    exact h.names.giveBack _

/-- A pulse runs at a WATCH output in a pulse mode alone, which its end drives off (R130). -/
theorem deviceWf_execPulseTimerExpiry (o : Fin 8) : Leads DeviceWf (execPulseTimerExpiry o s) := by
  refine deviceWf_event h fun runs =>
    ⟨⟨h.results, h.values, h.validity, h.watches, fun committed x => ?_, h.names, h.snapshots⟩, h.streak⟩
  have agrees := h.outputs committed x
  by_cases own : o = x
  · subst own
    show OutputAgrees s.settings s.valid s.watches o (s.outputs.set o _)[o]
    rw [Fin.getElem_fin, Vector.getElem_set_self]
    have running : s.outputs[o].pulse ≠ none := Option.isSome_iff_ne_none.mp runs
    obtain ⟨-, latched, -, follows, -⟩ := agrees
    refine ⟨fun _ => ⟨rfl, rfl⟩, fun source => ?_, fun _ _ => ⟨rfl, rfl⟩, fun source valid mode => ?_, fun _ _ _ => rfl⟩
    · exact absurd (latched source).2 running
    · exact absurd (follows source valid mode).2 running
  · have ne : o.val ≠ x.val := fun eq => own (Fin.ext eq)
    show OutputAgrees s.settings s.valid s.watches x (s.outputs.set o _)[x]
    rw [Fin.getElem_fin, Vector.getElem_set_ne o.isLt x.isLt ne]
    exact agrees

include wf

theorem deviceWf_exec (link : LinkWf s) (c : Instr) : Leads DeviceWf (exec c s) := by
  cases c with
  | powerOnReset => exact (leads_next _ _).mpr (deviceWf_blocksReset s _ _)
  | resetPinFall => exact deviceWf_execResetPinFall h
  | resetEnd fmt1 fmt0 => exact deviceWf_execResetEnd h fmt1 fmt0
  | tselFall fall => exact deviceWf_execTselFall h fall
  | tselRise => exact deviceWf_execTselRise h
  | unknown code => exact deviceWf_execUnknown h code
  | status | readEntry | readOutbox | readRoster | takeNotice | readSnapshot | setupRead =>
    exact deviceWf_takeRequest h h
  | takeNoticeDelivered => exact deviceWf_execTakeNoticeDelivered h
  | releaseSnapshot => exact deviceWf_takeRequest h (deviceWf_releaseSnapshot h)
  | freeze => exact deviceWf_takeRequest h (deviceWf_requestFreeze h)
  | zero entry => exact deviceWf_takeRequest (effect := fun t => t.requestZero entry) h (deviceWf_requestZero h entry)
  | adjust entry amount =>
    exact deviceWf_takeRequest (effect := fun t => t.requestAdjust entry amount) h
      (deviceWf_requestAdjust h entry amount)
  | setOutput output level =>
    exact deviceWf_takeRequest (effect := fun t => t.requestOutput output level) h
      (deviceWf_requestOutput h output level)
  | leave => exact deviceWf_takeRequest h (deviceWf_requestLeave h)
  | rejoin lmark lbeat =>
    exact deviceWf_takeRequest (effect := fun t => t.requestRejoin lmark lbeat) h
      (deviceWf_requestRejoin wf h lmark lbeat)
  | setupWrite offset length data =>
    exact leads_ite (fun _ => deviceWf_takeRequest (effect := fun t => t.requestWrite offset length data) h
      (deviceWf_requestWrite wf h offset length data)) fun _ => leads_deviceWf_self h
  | setupCommit lmark lbeat =>
    exact deviceWf_takeRequest (effect := fun t => t.requestCommit lmark lbeat) h
      (deviceWf_requestCommit wf h link lmark lbeat)
  | syncLmarkFall | syncLbeatChange | stallTimerExpiry | lbeatFall | passageTimerExpiry =>
    exact deviceWf_event h fun _ => h.same rfl rfl
  | waitLmarkRise => exact deviceWf_event h fun _ => h.change rfl nofun h.names h.snapshots
  | quietTimerExpiry => exact deviceWf_execQuietTimerExpiry h
  | roundTimerExpiry => exact deviceWf_event h fun _ => (deviceWf_compose h).same rfl rfl
  | lbeatHalfPeriodExpiry => exact deviceWf_execLbeatHalfPeriodExpiry h
  | ownFrameSent ldata | frameReceived ldata | lbeatRise ldata =>
    exact deviceWf_event h fun _ => deviceWf_takeRise wf h ldata
  | roundClose ldata order =>
    exact deviceWf_event h fun _ => deviceWf_closeRound
      (setupWf_of_steady wf (steady_takeRise (Steady.refl wf) ldata)) (deviceWf_takeRise wf h ldata) order
  | lmarkFallInRound order | beatStuckExpiry order => exact deviceWf_event h fun _ => deviceWf_abortRound h order
  | sampleInstant levels order => exact deviceWf_event h fun _ => deviceWf_takeSamples wf h levels order
  | pulseTimerExpiry output => exact deviceWf_execPulseTimerExpiry h output
  | tclkSamplingEdge tdi elapsed => exact deviceWf_execTclkSamplingEdge h tdi elapsed

end

theorem setupWf_step {s t : State} (wf : SetupWf s) (stepped : step s = .next t) : SetupWf t := by
  unfold step at stepped
  split at stepped
  · exact Host.Outcome.next.inj stepped ▸ setupWf_of_steady wf (steady_idle (Steady.refl wf))
  · next c rest _ =>
    have queued : SetupWf { s with pending := rest } := wf
    exact setupWf_exec queued c t stepped

theorem deviceWf_step {s t : State} (wf : SetupWf s) (link : LinkWf s) (h : DeviceWf s)
    (stepped : step s = .next t) : DeviceWf t := by
  unfold step at stepped
  split at stepped
  · exact Host.Outcome.next.inj stepped ▸ deviceWf_idle h
  · next c rest _ =>
    have queued : DeviceWf { s with pending := rest } := h.same rfl rfl
    exact deviceWf_exec (s := { s with pending := rest }) wf queued link c t stepped

/-- Settles O59: the laws of the Setup store, the link, the Outbox and the notices each keep themselves; the rest keep
one another beside the first two. -/
theorem everyStepKeepsLaws : Obligations.EveryStepKeepsLaws := by
  unfold Obligations.EveryStepKeepsLaws
  intro s t lawful stepped
  obtain ⟨setup, link, outbox, notices, device⟩ := (lawful_iff s).mp lawful
  exact (lawful_iff t).mpr ⟨setupWf_step setup stepped, everyStepKeepsLinkDiscipline s t link stepped,
    everyStepKeepsOutboxLimits s t outbox stepped, everyStepKeepsNoticeQueue s t notices stepped,
    deviceWf_step setup link device stepped⟩

end Sys2Proof.Machine

namespace Sys2Proof.Machine

open Sys2Proof.Safety

/-! ### The state after reset -/

theorem deviceWf_reset : DeviceWf State.reset :=
  ⟨⟨nofun, Replica.withinCeilings_empty _, ⟨rfl, nofun⟩, nofun, nofun, Outbox.namesUsed_empty _, Nat.zero_le _⟩,
    nofun, nofun⟩

theorem setupWf_reset : SetupWf State.reset :=
  ⟨rfl, iff_of_false nofun fun left => left rfl, nofun, rfl, nofun, nofun⟩

/-- Settles O60: each law at the reset values of the fields that it speaks of. -/
theorem resetMeetsLaws : Obligations.ResetMeetsLaws := by
  unfold Obligations.ResetMeetsLaws
  constructor
  · refine (lawful_iff _).mpr ⟨setupWf_reset, ?_, (outboxWf_iff_limits _).mpr Outbox.limits_empty,
      (noticesWf_iff_queue _).mpr noticeQueueWf_nil, deviceWf_reset⟩
    exact linkWf_of_off rfl rfl rfl rfl
  · exact countingWf_of_reset setupWf_reset (fun _ => Vector.getElem_replicate _) fun _ => Vector.getElem_replicate _

theorem Record.watched_nil (e : Entry) : Record.watched [] e = false := by simp [Record.watched]

theorem Record.safeLevel_nil (o : Fin 8) : Record.safeLevel [] o = .low := by simp [Record.safeLevel, Level.ofBit]

/-- Settles O3: the fields one by one, those of a table at each of its indices. -/
theorem powerOnResetValues : Obligations.PowerOnResetValues := by
  unfold Obligations.PowerOnResetValues
  have tables (e : Entry) : State.reset.replica.entries[e] = { value := 0, known := false } ∧
      State.reset.outbox.pending[e] = 0 ∧ State.reset.outbox.saturated[e] = false ∧
      State.reset.watches[e] = .below ∧ State.reset.watchState e = none :=
    ⟨Vector.getElem_replicate _, Vector.getElem_replicate _, Vector.getElem_replicate _, Vector.getElem_replicate _,
      by rw [State.watchState, State.reset_settings, Record.watched_nil, if_neg Bool.false_ne_true]⟩
  have roster (k : Fin 16) : State.reset.member.roster[k] = .absent := Vector.getElem_replicate _
  have inputs (i : Fin 8) : State.reset.inputs.inputs[i] = { primed := false, level := .low, run := 0 } :=
    Vector.getElem_replicate _
  have detectors (p : Fin 4) : State.reset.detectors[p] =
      { state := .idle, markA := false, markB := false, timer := none } := Vector.getElem_replicate _
  have output (o : Fin 8) : State.reset.outputs[o] = Output.atReset .low := Vector.getElem_replicate _
  have outputs (o : Fin 8) : State.reset.outputs[o].level = .low ∧ State.reset.outputs[o].pulse = none ∧
      State.reset.outputs[o].latch = some .low := by
    rw [output o]
    exact ⟨rfl, rfl, rfl⟩
  have record (offset : Fin 512) : State.reset.setup.record.read offset.val = 0x00 := Record.read_nil _
  exact ⟨tables, rfl, rfl, rfl, rfl,
    rfl, rfl, rfl, rfl, rfl, rfl, rfl, rfl,
    rfl, rfl, rfl, rfl, rfl, rfl, rfl, rfl, rfl, rfl, rfl, rfl, rfl, rfl,
    rfl, rfl, rfl, rfl, rfl, rfl,
    rfl, rfl, rfl, roster, rfl, rfl,
    rfl, inputs, detectors, outputs,
    rfl, rfl, rfl, rfl, rfl, rfl, rfl, rfl, rfl,
    record, rfl, rfl, rfl, rfl⟩

/-- A reset from any state, the fields that it keeps apart (R161). -/
theorem State.blocksReset_powerOn (s : State) : s.blocksReset [] .powerOn = { State.reset with
    pending := s.pending, resetting := some .powerOn
    setup := { State.reset.setup with cause := s.setup.cause }
    tap := { State.reset.tap with tsel := s.tap.tsel, fmt1 := s.tap.fmt1, fmt0 := s.tap.fmt0 } } := by
  have safe : (Vector.ofFn fun o : Fin 8 => Output.atReset (Record.safeLevel [] o)) = State.reset.outputs := by
    ext i inside : 1
    show _ = (Vector.replicate 8 (Output.atReset .low))[i]
    rw [Vector.getElem_ofFn, Vector.getElem_replicate, Record.safeLevel_nil]
  simp only [State.blocksReset, safe]
  rfl

theorem execResetPinFall_of_awake {s : State} (awake : s.resetting = none) :
    execResetPinFall s = .next (s.blocksReset s.setup.record .pin) := by
  simp only [execResetPinFall, awake]

theorem execResetPinFall_of_resetting {s : State} (resets : s.resetting ≠ none) : execResetPinFall s = .next s := by
  obtain ⟨kind, resetting⟩ := Option.ne_none_iff_exists'.mp resets
  simp only [execResetPinFall, resetting]

theorem execResetEnd_of_resetting {s : State} {kind : ResetKind} (resetting : s.resetting = some kind)
    (fmt1 fmt0 : Level) : execResetEnd fmt1 fmt0 s = .next { s with
      resetting := none
      setup := { s.setup with cause := kind }
      tap := { s.tap with fmt1 := fmt1, fmt0 := fmt0 } } := by
  simp only [execResetEnd, resetting]

/-- Settles O4: the three commands, the pin's fall by whether a reset is in progress. -/
theorem resetsReturnEveryBlock : Obligations.ResetsReturnEveryBlock := by
  unfold Obligations.ResetsReturnEveryBlock
  refine ⟨fun s => ?_, fun s => ⟨fun awake => ?_, execResetPinFall_of_resetting⟩,
    fun s kind fmt1 fmt0 resetting => ?_⟩
  · exact congrArg Host.Outcome.next s.blocksReset_powerOn
  · exact execResetPinFall_of_awake awake
  · exact execResetEnd_of_resetting resetting fmt1 fmt0

/-- Settles O19: the request's owner enters LISTEN as Safety writes it out. -/
theorem rejoinListensAnew : Obligations.RejoinListensAnew := by
  unfold Obligations.RejoinListensAnew
  intro s lmark lbeat stale completes
  have entered : s.requestRejoin lmark lbeat = (listensAnew s s.settings 0x09 lmark lbeat, answerOk []) := by
    rw [State.requestRejoin, if_pos stale, State.listenFromOff_eq_listensAnew]
    rfl
  refine (takeRequest_answered (fun t => t.requestRejoin lmark lbeat) completes).trans ?_
  simp only [entered]
  rfl

end Sys2Proof.Machine

namespace Sys2Proof.Machine

open Sys2Proof.Safety

/-! ### One zero request and one delta (R1 to R3) -/

section
variable {m : Record} {r : Replica}

theorem Replica.writes_member (m : Record) (r : Replica) (e : Entry) :
    r.writes m false e = decide (m.kind e ≠ .off) := by simp [Replica.writes]

/-- At a listener an application writes what a member's writes, where the entry is known (R16). -/
theorem Replica.writes_listener (m : Record) (r : Replica) (e : Entry) :
    r.writes m true e = (r.writes m false e && r.entries[e].known) := by simp [Replica.writes]

theorem Replica.applyZero_of_used {e : Entry} (used : m.kind e ≠ .off) :
    r.applyZero m false e = r.setValue e (m.preset e) := by simp [Replica.applyZero, Replica.writes_member, used]

theorem Replica.applyZero_of_off {e : Entry} (off : m.kind e = .off) : r.applyZero m false e = r := by
  simp [Replica.applyZero, Replica.writes_member, off]

theorem Replica.applyDelta_of_used {d : Delta} (used : m.kind d.entry ≠ .off) (cuts : Cuts) :
    Replica.applyDelta m false (r, cuts) d =
      (let result := deltaResult (m.kind d.entry) (m.ceiling d.entry) r.entries[d.entry].value d.amount
       (r.setValue d.entry result.1, if result.2 = 0 then cuts else cuts ++ [(d.entry, result.2)])) := by
  simp [Replica.applyDelta, Replica.writes_member, used]

theorem Replica.applyDelta_of_off {d : Delta} (off : m.kind d.entry = .off) (cuts : Cuts) :
    Replica.applyDelta m false (r, cuts) d = (r, cuts) := by
  simp [Replica.applyDelta, Replica.writes_member, off]

/-- A zero request touches the value of its entry alone. -/
theorem Replica.applyZero_frame (m : Record) (listening : Bool) (r : Replica) (e : Entry) :
    (∀ other : Entry, other ≠ e → (r.applyZero m listening e).entries[other] = r.entries[other]) ∧
    (∀ other : Entry, (r.applyZero m listening e).entries[other].known = r.entries[other].known) ∧
    (r.applyZero m listening e).cs = r.cs ∧ (r.applyZero m listening e).csKnown = r.csKnown ∧
    (r.applyZero m listening e).stale = r.stale := by
  rcases r.applyZero_cases m listening e with ⟨-, eq⟩ | ⟨-, eq⟩ <;> rw [eq]
  · exact ⟨fun other ne => r.setValue_other _ ne, fun other => r.setValue_known e other _, rfl, rfl, rfl⟩
  · exact ⟨fun _ _ => rfl, fun _ => rfl, rfl, rfl, rfl⟩

/-- A delta touches the value of its entry alone. -/
theorem Replica.applyDelta_frame (m : Record) (listening : Bool) (rc : Replica × Cuts) (d : Delta) :
    (∀ other : Entry, other ≠ d.entry →
      (Replica.applyDelta m listening rc d).1.entries[other] = rc.1.entries[other]) ∧
    (∀ other : Entry, (Replica.applyDelta m listening rc d).1.entries[other].known = rc.1.entries[other].known) ∧
    (Replica.applyDelta m listening rc d).1.cs = rc.1.cs ∧
    (Replica.applyDelta m listening rc d).1.csKnown = rc.1.csKnown ∧
    (Replica.applyDelta m listening rc d).1.stale = rc.1.stale := by
  rcases Replica.applyDelta_cases m listening rc d with ⟨-, eq⟩ | ⟨-, eq⟩ <;> rw [eq]
  · exact ⟨fun other ne => rc.1.setValue_other _ ne, fun other => rc.1.setValue_known d.entry other _, rfl, rfl, rfl⟩
  · exact ⟨fun _ _ => rfl, fun _ => rfl, rfl, rfl, rfl⟩

end

/-! ### The arithmetic of a delta -/

/-- A COUNT sum wraps modulo 16,777,216, its amount taken with its sign (R2). -/
theorem Tally.toNat_add_signExtend (value : Tally) (amount : Amount) :
    ((value + amount.signExtend 24).toNat : Int) = ((value.toNat : Int) + amount.toInt) % 16777216 := by
  have extended : (amount.signExtend 24).toInt = amount.toInt := BitVec.toInt_signExtend_of_le (by decide)
  have wrapped := BitVec.toInt_eq_toNat_bmod (amount.signExtend 24)
  have small : (amount.signExtend 24).toNat < 16777216 := (amount.signExtend 24).isLt
  rw [← extended, wrapped, BitVec.toNat_add]
  simp only [Int.bmod_def]
  omega

/-- A LEVEL sum is held to 0 to the ceiling, and what the hold takes off is cut (R3). -/
theorem deltaResult_level {ceiling value : Tally} (amount : Amount) :
    let sum : Int := (value.toNat : Int) + amount.toInt
    let result : Int := max 0 (min (ceiling.toNat : Int) sum)
    ((deltaResult .level ceiling value amount).1.toNat : Int) = result ∧
    (deltaResult .level ceiling value amount).2 = (sum - result).natAbs := by
  intro sum result
  have small : ceiling.toNat < 16777216 := ceiling.isLt
  show ((if sum < 0 then _ else _ : Tally × Nat).1.toNat : Int) = result ∧
    (if sum < 0 then _ else _ : Tally × Nat).2 = _
  split
  · exact ⟨by simp only [result]; simp; omega, by simp only [result]; omega⟩
  · split
    · exact ⟨by simp only [result]; omega, by simp only [result]; omega⟩
    · refine ⟨?_, by simp only [result]; omega⟩
      simp only [BitVec.toNat_ofInt, result]
      omega

/-- Settles O43: the written value by the kind, all else by the frames of the two operations. -/
theorem countDeltaWraps : Obligations.CountDeltaWraps := by
  unfold Obligations.CountDeltaWraps
  intro m r cuts d e added zeroed
  obtain ⟨others, known, cs, csKnown, stale⟩ := Replica.applyDelta_frame m false (r, cuts) d
  obtain ⟨zeroedOthers, zeroedKnown, zeroedCs, zeroedCsKnown, zeroedStale⟩ := r.applyZero_frame m false e
  refine ⟨fun count => ?_, fun count => ?_, others, zeroedOthers, fun other => ⟨known other, zeroedKnown other⟩,
    cs, csKnown, stale, zeroedCs, zeroedCsKnown, zeroedStale⟩
  · have written : added = (r.setValue d.entry (r.entries[d.entry].value + d.amount.signExtend 24), cuts) := by
      rw [show added = _ from Replica.applyDelta_of_used (by rw [count]; decide) cuts, count]
      rfl
    rw [written, Fin.getElem_fin, Replica.setValue_same]
    exact ⟨Tally.toNat_add_signExtend _ _, rfl⟩
  · rw [show zeroed = _ from Replica.applyZero_of_used (by rw [count]; decide), Fin.getElem_fin, Replica.setValue_same]

/-- Settles O44: the clamp's arithmetic at the written entry, and the two operations by the entry's kind. -/
theorem levelDeltaClamps : Obligations.LevelDeltaClamps := by
  unfold Obligations.LevelDeltaClamps
  refine ⟨fun m r cuts d level _ => ?_, fun m r cuts d e =>
    ⟨fun level => ?_, Replica.applyZero_of_off, fun off => Replica.applyDelta_of_off off cuts⟩⟩
  · intro sum result
    obtain ⟨value, cut⟩ := deltaResult_level (ceiling := m.ceiling d.entry) (value := r.entries[d.entry].value) d.amount
    rw [Replica.applyDelta_of_used (by rw [level]; decide), level, Fin.getElem_fin, Replica.setValue_same]
    refine ⟨value, ?_⟩
    simp only [cut]
    refine if_congr ?_ rfl rfl
    rw [Int.natAbs_eq_zero, sub_eq_zero]
  · rw [Replica.applyZero_of_used (by rw [level]; decide), Fin.getElem_fin, Replica.setValue_same]

end Sys2Proof.Machine

namespace Sys2Proof.Machine

open Sys2Proof.Safety

/-! ### What an adoption does (R15, R16) -/

/-- The carries of the frames of a round, each put into its entry in slot order (R15). -/
def carriedEntries (entries : Vector Tallied 32) (frames : List Frame) : Vector Tallied 32 :=
  frames.foldl (fun entries f => entries.set f.carryIndex ({ value := f.carryValue, known := true } : Tallied)) entries

theorem Replica.foldl_adoptCarry (frames : List Frame) (r : Replica) :
    frames.foldl Replica.adoptCarry r = { r with entries := carriedEntries r.entries frames } := by
  unfold carriedEntries
  induction frames generalizing r with
  | nil => rfl
  | cons f rest ih =>
    rw [List.foldl_cons, ih]
    rfl

/-- CS comes from the first frame where it is not known (R15). -/
theorem Replica.adoptCs_eq (r : Replica) (frames : List Frame) : r.adoptCs frames = { r with
    cs := if r.csKnown = true then r.cs else match frames with
      | f :: _ => f.cs
      | [] => r.cs
    csKnown := r.csKnown || !frames.isEmpty } := by
  obtain ⟨entries, cs, csKnown, stale⟩ := r
  cases frames <;> cases csKnown <;> rfl

/-- The replica once CS and the carries of a round have been adopted (R15). -/
def Replica.carried (r : Replica) (frames : List Frame) : Replica :=
  { r.adoptCs frames with entries := carriedEntries r.entries frames }

theorem Replica.adopt_eq (m : Record) (r : Replica) (frames : List Frame) :
    r.adopt m frames = ((r.carried frames).applyAll m true (frames.map Frame.business)).1.countRound := by
  have entries : (r.adoptCs frames).entries = r.entries := by rw [Replica.adoptCs_eq]
  rw [Replica.adopt, Replica.foldl_adoptCarry, entries]
  rfl

theorem Replica.countRound_eq (r : Replica) :
    r.countRound = { r with cs := if r.csKnown = true then r.cs + 1 else r.cs } := by
  unfold Replica.countRound
  split <;> rfl

/-- The frames of a round applied, as a fold over the frames themselves (R10). -/
theorem Replica.applyAll_business (m : Record) (listening : Bool) (r : Replica) (frames : List Frame) :
    r.applyAll m listening (frames.map Frame.business) = frames.foldl (fun rc f =>
      f.deltas.foldl (Replica.applyDelta m listening)
        (f.zeros.foldl (Replica.applyZero m listening) rc.1, rc.2)) (r, []) :=
  List.foldl_map

/-- A carried entry is known, whatever it was before (R15). -/
theorem carriedEntries_known (entries : Vector Tallied 32) (frames : List Frame) (e : Entry) :
    (carriedEntries entries frames)[e].known = true ↔
      entries[e].known = true ∨ ∃ f ∈ frames, f.carryIndex = e := by
  unfold carriedEntries
  induction frames generalizing entries with
  | nil => simp
  | cons f rest ih =>
    rw [List.foldl_cons, ih, List.exists_mem_cons_iff, ← or_assoc]
    refine or_congr_left ?_
    rw [Fin.getElem_fin, Vector.getElem_set]
    split
    · next same => exact iff_of_true rfl (.inr (Fin.ext same))
    · next other => exact (or_iff_left fun same => other (congrArg Fin.val same)).symm

/-- An entry that no frame carries stays as it was (R15). -/
theorem carriedEntries_other (entries : Vector Tallied 32) (frames : List Frame) {e : Entry}
    (uncarried : ∀ f ∈ frames, f.carryIndex ≠ e) : (carriedEntries entries frames)[e] = entries[e] := by
  unfold carriedEntries
  induction frames generalizing entries with
  | nil => rfl
  | cons f rest ih =>
    obtain ⟨first, rest⟩ := List.forall_mem_cons.mp uncarried
    rw [List.foldl_cons, ih _ rest, Fin.getElem_fin, Vector.getElem_set_ne]
    · rfl
    · exact fun same => first (Fin.ext same)

/-- At a listener an application leaves an unknown entry as it is (R16). -/
theorem Replica.applyAll_unknown (m : Record) (r : Replica) (round : List Business) {e : Entry}
    (unknown : r.entries[e].known = false) : (r.applyAll m true round).1.entries[e] = r.entries[e] := by
  refine Replica.applyAll_induction (P := fun x => x.entries[e] = r.entries[e]) m true (fun x z same => ?_)
    (fun x d same => ?_) r round rfl
  · obtain ⟨others, -⟩ := x.applyZero_frame m true z
    by_cases own : e = z
    · subst own
      rcases x.applyZero_cases m true e with ⟨writes, -⟩ | ⟨-, eq⟩
      · rw [Replica.writes_listener, same, unknown, Bool.and_false] at writes
        exact nomatch writes
      · rw [eq, same]
    · rw [others e own, same]
  · obtain ⟨others, -⟩ := Replica.applyDelta_frame m true x d
    by_cases own : e = d.entry
    · rcases Replica.applyDelta_cases m true x d with ⟨writes, -⟩ | ⟨-, eq⟩
      · rw [Replica.writes_listener, ← own, same, unknown, Bool.and_false] at writes
        exact nomatch writes
      · rw [eq, same]
    · rw [others e own, same]

/-! ### A listener that follows a member's table (R16) -/

/-- Every value that the listener knows is the member's. -/
def Replica.Follows (listener member : Replica) : Prop :=
  ∀ e : Entry, listener.entries[e].known = true → listener.entries[e].value = member.entries[e].value

theorem Replica.applyZero_listener (m : Record) (r : Replica) (e : Entry) :
    r.applyZero m true e = if r.entries[e].known = true then r.applyZero m false e else r := by
  rw [Replica.applyZero, Replica.applyZero, Replica.writes_listener]
  cases r.entries[e].known <;> simp

theorem Replica.applyDelta_listener (m : Record) (r : Replica) (cuts : Cuts) (d : Delta) :
    Replica.applyDelta m true (r, cuts) d =
      if r.entries[d.entry].known = true then Replica.applyDelta m false (r, cuts) d else (r, cuts) := by
  rw [Replica.applyDelta, Replica.applyDelta, Replica.writes_listener]
  cases r.entries[d.entry].known <;> simp

section
variable {m : Record} {listener member : Replica} (h : listener.Follows member)
include h

/-- The same value put into an entry of both. -/
theorem Replica.Follows.setValue (e : Entry) (value : Tally) :
    (listener.setValue e value).Follows (member.setValue e value) := by
  intro x known
  by_cases own : x = e
  · subst own
    simp
  · rw [listener.setValue_other value own] at known ⊢
    rw [member.setValue_other value own]
    exact h x known

/-- What the member alone changes at an entry that the listener does not know. -/
theorem Replica.Follows.of_unknown {e : Entry} {after : Replica} (unknown : listener.entries[e].known = false)
    (others : ∀ x : Entry, x ≠ e → after.entries[x] = member.entries[x]) : listener.Follows after := by
  intro x known
  rw [others x (fun own => by rw [own, unknown] at known; exact nomatch known)]
  exact h x known

theorem Replica.Follows.applyZero (e : Entry) : (listener.applyZero m true e).Follows (member.applyZero m false e) := by
  obtain ⟨others, -⟩ := member.applyZero_frame m false e
  rw [Replica.applyZero_listener]
  split
  · by_cases off : m.kind e = .off
    · rw [Replica.applyZero_of_off off, Replica.applyZero_of_off off]
      exact h
    · rw [Replica.applyZero_of_used off, Replica.applyZero_of_used off]
      exact h.setValue e _
  · next unknown => exact h.of_unknown ((Bool.not_eq_true _).mp unknown) others

theorem Replica.Follows.applyDelta (cuts cuts' : Cuts) (d : Delta) :
    (Replica.applyDelta m true (listener, cuts) d).1.Follows (Replica.applyDelta m false (member, cuts') d).1 := by
  obtain ⟨others, -⟩ := Replica.applyDelta_frame m false (member, cuts') d
  rw [Replica.applyDelta_listener]
  split
  · next known =>
    by_cases off : m.kind d.entry = .off
    · rw [Replica.applyDelta_of_off off, Replica.applyDelta_of_off off]
      exact h
    · rw [Replica.applyDelta_of_used off, Replica.applyDelta_of_used off, h d.entry known]
      exact h.setValue d.entry _
  · next unknown => exact h.of_unknown ((Bool.not_eq_true _).mp unknown) others

theorem Replica.Follows.applyZeros (zeros : List Entry) :
    (zeros.foldl (Replica.applyZero m true) listener).Follows (zeros.foldl (Replica.applyZero m false) member) := by
  induction zeros generalizing listener member with
  | nil => exact h
  | cons e rest ih => exact ih (h.applyZero e)

theorem Replica.Follows.applyDeltas (deltas : List Delta) (cuts cuts' : Cuts) :
    (deltas.foldl (Replica.applyDelta m true) (listener, cuts)).1.Follows
      (deltas.foldl (Replica.applyDelta m false) (member, cuts')).1 := by
  induction deltas generalizing listener member cuts cuts' with
  | nil => exact h
  | cons d rest ih => exact ih (h.applyDelta cuts cuts' d) _ _

theorem Replica.Follows.applyAll (round : List Business) :
    (listener.applyAll m true round).1.Follows (member.applyAll m false round).1 := by
  unfold Replica.applyAll
  generalize ([] : Cuts) = cuts
  suffices ∀ cuts', (round.foldl (Replica.applyBusiness m true) (listener, cuts)).1.Follows
      (round.foldl (Replica.applyBusiness m false) (member, cuts')).1 from this cuts
  induction round generalizing listener member cuts with
  | nil => exact fun _ => h
  | cons b rest ih => exact fun cuts' => ih ((h.applyZeros b.zeros).applyDeltas b.deltas cuts cuts') _ _

/-- Frames that carry the member's values keep what the listener knows the member's (R15). -/
theorem Replica.Follows.carried {frames : List Frame}
    (carries : ∀ f ∈ frames, f.carryValue = member.entries[f.carryIndex].value) :
    (listener.carried frames).Follows member := by
  intro e
  show (carriedEntries listener.entries frames)[e].known = true → (carriedEntries listener.entries frames)[e].value = _
  have start := h e
  unfold carriedEntries
  generalize listener.entries = entries at start
  induction frames generalizing entries with
  | nil => exact start
  | cons f rest ih =>
    obtain ⟨first, rest⟩ := List.forall_mem_cons.mp carries
    refine ih rest _ fun known => ?_
    by_cases same : f.carryIndex = e
    · rw [← same, Fin.getElem_fin, Vector.getElem_set_self, first]
    · have ne : f.carryIndex.val ≠ e.val := fun eq => same (Fin.ext eq)
      rw [Fin.getElem_fin, Vector.getElem_set_ne _ _ ne] at known ⊢
      exact start known

end

/-- What an adoption leaves of the flags and of the entries, before any comparison with a member. -/
theorem Replica.adopt_frame (m : Record) (r : Replica) (frames : List Frame) :
    (r.adopt m frames).csKnown = (r.csKnown || !frames.isEmpty) ∧
    (∀ e : Entry, (r.adopt m frames).entries[e].known = true ↔
      r.entries[e].known = true ∨ ∃ f ∈ frames, f.carryIndex = e) ∧
    (∀ e : Entry, r.entries[e].known = false → (∀ f ∈ frames, f.carryIndex ≠ e) →
      (r.adopt m frames).entries[e] = r.entries[e]) := by
  obtain ⟨-, csKnown, -, known⟩ := (r.carried frames).applyAll_flags m true (frames.map Frame.business)
  rw [Replica.adopt_eq, Replica.countRound_eq]
  refine ⟨csKnown.trans ?_, fun e => ?_, fun e unknown uncarried => ?_⟩
  · rw [Replica.carried, Replica.adoptCs_eq]
  · exact (Bool.coe_iff_coe.mpr (known e)).trans (carriedEntries_known r.entries frames e)
  · have same : (r.carried frames).entries[e] = r.entries[e] := carriedEntries_other r.entries frames uncarried
    rw [← same] at unknown ⊢
    exact Replica.applyAll_unknown m _ _ unknown

/-- The CS that an adoption leaves (R15, R16). -/
theorem Replica.adopt_cs (m : Record) (r : Replica) (frames : List Frame) : (r.adopt m frames).cs =
    if (r.csKnown || !frames.isEmpty) = true then (r.adoptCs frames).cs + 1 else (r.adoptCs frames).cs := by
  obtain ⟨cs, csKnown, -⟩ := (r.carried frames).applyAll_flags m true (frames.map Frame.business)
  rw [Replica.adopt_eq, Replica.countRound_eq]
  dsimp only
  rw [cs, csKnown, Replica.carried, Replica.adoptCs_eq]

/-- Settles O45: the adoption step by step, the two operations at a listener, and the simulation of a member's
application by a listener that follows it. -/
theorem listenerFollowsMember : Obligations.ListenerFollowsMember := by
  unfold Obligations.ListenerFollowsMember
  refine ⟨fun m r frames => ?_, fun m r cuts d e => ⟨r.applyDelta_listener m cuts d, r.applyZero_listener m e⟩,
    fun m member listener frames values serial frameValues => ?_⟩
  · intro cs known carried acted after
    obtain ⟨csKnown, entriesKnown, entriesKept⟩ := r.adopt_frame m frames
    have afterCs := r.adopt_cs m frames
    rw [Replica.adoptCs_eq] at afterCs
    have start : r.carried frames = carried := by
      rw [Replica.carried, Replica.adoptCs_eq]
      rfl
    have applied : after = acted.countRound := by
      rw [show after = _ from Replica.adopt_eq m r frames, start, Replica.applyAll_business]
    obtain ⟨actedCs, actedKnown, -⟩ := carried.applyAll_flags m true (frames.map Frame.business)
    rw [Replica.applyAll_business] at actedCs actedKnown
    refine ⟨?_, csKnown, afterCs, Replica.adopt_stale m r frames, entriesKnown, entriesKept⟩
    rw [applied, Replica.countRound_eq, show acted.cs = cs from actedCs, show acted.csKnown = known from actedKnown]
  · intro after table
    obtain ⟨csKnown, entriesKnown, -⟩ := listener.adopt_frame m frames
    have follows : listener.Follows member := values
    have carried := follows.carried fun f heard => (frameValues f heard).2
    refine ⟨fun e known => ?_, fun known => ?_, fun f heard => (entriesKnown _).mpr (.inr ⟨f, heard, rfl⟩),
      fun some => ?_⟩
    · have eq : after.entries = ((listener.carried frames).applyAll m true (frames.map Frame.business)).1.entries := by
        rw [show after = _ from Replica.adopt_eq m listener frames, Replica.countRound_eq]
      rw [eq] at known ⊢
      exact carried.applyAll (frames.map Frame.business) e known
    · have tableCs : table.cs = member.cs + 1 := congrArg (· + 1)
        (member.applyAll_flags m false (frames.map Frame.business)).1
      rw [show after.csKnown = _ from csKnown] at known
      rw [tableCs, show after.cs = _ from listener.adopt_cs m frames, if_pos known, Replica.adoptCs_eq]
      dsimp only
      split
      · next held => rw [serial held]
      · next unknown =>
        cases frames with
        | nil => simp [unknown] at known
        | cons f rest => exact congrArg (· + 1) (frameValues f List.mem_cons_self).1
    · rw [show after.csKnown = _ from csKnown]
      simp [some]

end Sys2Proof.Machine

namespace Sys2Proof.Machine

open Sys2Proof.Safety

/-! ### Postings in order (R12, R126, R141, R142) -/

/-- The value of a STATE_CHANGED as a number (R79, R170). -/
theorem tallyOfBytes_states (left entered : Byte) :
    tallyOfBytes 0 left entered = BitVec.ofNat 24 (256 * left.toNat + entered.toNat) := by
  have high := left.isLt
  have low := entered.isLt
  have zero : (0 : Byte).toNat = 0 := rfl
  refine BitVec.eq_of_toNat_eq ?_
  simp only [tallyOfBytes, zero, BitVec.toNat_append, BitVec.toNat_ofNat]
  rw [← Nat.shiftLeft_add_eq_or_of_lt low, ← Nat.shiftLeft_add_eq_or_of_lt high]
  simp only [Nat.shiftLeft_eq]
  omega

/-- What one block's turn takes: the head of its own notices, the other blocks' left as they are. -/
theorem Posts.take_cases {p left : Posts} {b : NoticeBlock} {n : Notice} (taken : p.take b = some (n, left)) :
    (b = .link ∧ p.link = n :: left.link ∧ p = { left with link := p.link }) ∨
    (b = .replica ∧ p.replica = n :: left.replica ∧ p = { left with replica := p.replica }) ∨
    (b = .watch ∧ p.replica = [] ∧ p.watch = n :: left.watch ∧ p = { left with watch := p.watch }) ∨
    (b = .snapshot ∧ p.replica = [] ∧ p.snapshot = n :: left.snapshot ∧ p = { left with snapshot := p.snapshot }) ∨
    (b = .outbox ∧ p.outbox = n :: left.outbox ∧ p = { left with outbox := p.outbox }) ∨
    (b = .membership ∧ p.membership = n :: left.membership ∧ p = { left with membership := p.membership }) := by
  obtain ⟨link, replica, watch, snapshot, outbox, membership⟩ := p
  cases b <;> simp only [Posts.take] at taken <;> split at taken <;>
    simp only [Option.some.injEq, Prod.mk.injEq, reduceCtorEq] at taken <;> obtain ⟨rfl, rfl⟩ := taken <;> simp_all

/-- Notices that each turn either heads or leaves stand in the same order in all that is posted. -/
theorem Posts.sublist_inOrder {f : Posts → List Notice} (whole : ∀ p, (f p).Sublist p.all)
    (turn : ∀ {p left b n}, Posts.take p b = some (n, left) → f p = n :: f left ∨ f p = f left)
    (order : List NoticeBlock) (p : Posts) : (f p).Sublist (Posts.inOrder order p) := by
  induction order generalizing p with
  | nil => exact whole p
  | cons b rest ih =>
    simp only [Posts.inOrder]
    split
    · next n left taken =>
      rcases turn taken with eq | eq <;> rw [eq]
      · exact (ih left).cons_cons n
      · exact (ih left).cons n
    · exact ih p

section
variable (order : List NoticeBlock) (p : Posts)

theorem Posts.link_sublist : p.link.Sublist (Posts.inOrder order p) := by
  refine Posts.sublist_inOrder (f := Posts.link) (fun q => by simp [Posts.all]) (fun taken => ?_) order p
  rcases Posts.take_cases taken with ⟨-, eq, -⟩ | ⟨-, -, eq⟩ | ⟨-, -, -, eq⟩ | ⟨-, -, -, eq⟩ | ⟨-, -, eq⟩ | ⟨-, -, eq⟩
  · exact .inl eq
  all_goals exact .inr (by rw [eq])

theorem Posts.outbox_sublist : p.outbox.Sublist (Posts.inOrder order p) := by
  refine Posts.sublist_inOrder (f := Posts.outbox) (fun q => ?_) (fun taken => ?_) order p
  · exact (List.sublist_append_right _ _).trans (List.sublist_append_left _ _)
  · rcases Posts.take_cases taken with ⟨-, -, eq⟩ | ⟨-, -, eq⟩ | ⟨-, -, -, eq⟩ | ⟨-, -, -, eq⟩ | ⟨-, eq, -⟩ | ⟨-, -, eq⟩
    case inr.inr.inr.inr.inl => exact .inl eq
    all_goals exact .inr (by rw [eq])

theorem Posts.membership_sublist : p.membership.Sublist (Posts.inOrder order p) := by
  refine Posts.sublist_inOrder (f := Posts.membership) (fun q => List.sublist_append_right _ _) (fun taken => ?_)
    order p
  rcases Posts.take_cases taken with ⟨-, -, eq⟩ | ⟨-, -, eq⟩ | ⟨-, -, -, eq⟩ | ⟨-, -, -, eq⟩ | ⟨-, -, eq⟩ | ⟨-, eq, -⟩
  case inr.inr.inr.inr.inr => exact .inl eq
  all_goals exact .inr (by rw [eq])

/-- The Watch unit waits for the last notice of the Replica (R126). -/
theorem Posts.replica_watch_sublist : (p.replica ++ p.watch).Sublist (Posts.inOrder order p) := by
  refine Posts.sublist_inOrder (f := fun q => q.replica ++ q.watch) (fun q => ?_) (fun taken => ?_) order p
  · simp only [Posts.all, List.append_assoc]
    refine .trans ?_ (List.sublist_append_right q.link _)
    rw [← List.append_assoc]
    exact List.sublist_append_left _ _
  · rcases Posts.take_cases taken with ⟨-, -, eq⟩ | ⟨-, head, eq⟩ | ⟨-, waits, head, eq⟩ | ⟨-, -, -, eq⟩ | ⟨-, -, eq⟩ |
      ⟨-, -, eq⟩
    case inr.inl => exact .inl (by rw [head, eq]; rfl)
    case inr.inr.inl =>
      refine .inl ?_
      have none : Posts.replica _ = [] := (congrArg Posts.replica eq).symm.trans waits
      dsimp only at none ⊢
      rw [waits, head, none]
      rfl
    all_goals exact .inr (by rw [eq])

/-- The Snapshot queue waits for the last notice of the Replica (R12). -/
theorem Posts.replica_snapshot_sublist : (p.replica ++ p.snapshot).Sublist (Posts.inOrder order p) := by
  refine Posts.sublist_inOrder (f := fun q => q.replica ++ q.snapshot) (fun q => ?_) (fun taken => ?_) order p
  · simp only [Posts.all, List.append_assoc]
    refine .trans ((List.Sublist.refl q.replica).append ?_) (List.sublist_append_right q.link _)
    exact (List.sublist_append_left _ _).trans (List.sublist_append_right q.watch _)
  · rcases Posts.take_cases taken with ⟨-, -, eq⟩ | ⟨-, head, eq⟩ | ⟨-, -, -, eq⟩ | ⟨-, waits, head, eq⟩ | ⟨-, -, eq⟩ |
      ⟨-, -, eq⟩
    case inr.inl => exact .inl (by rw [head, eq]; rfl)
    case inr.inr.inr.inl =>
      refine .inl ?_
      have none : Posts.replica _ = [] := (congrArg Posts.replica eq).symm.trans waits
      dsimp only at none ⊢
      rw [waits, head, none]
      rfl
    all_goals exact .inr (by rw [eq])

variable {order p}

theorem Posts.inOrder_of_taken {b : NoticeBlock} {n : Notice} {left : Posts} (taken : p.take b = some (n, left)) :
    Posts.inOrder (b :: order) p = n :: Posts.inOrder order left := by simp only [Posts.inOrder, taken]

theorem Posts.inOrder_of_passed {b : NoticeBlock} (passed : p.take b = none) :
    Posts.inOrder (b :: order) p = Posts.inOrder order p := by simp only [Posts.inOrder, passed]

/-- A block with nothing to post, or that waits for the Replica, is passed over (R12, R126). -/
theorem Posts.take_eq_none {block : NoticeBlock} (idle : match block with
      | .link => p.link = []
      | .replica => p.replica = []
      | .watch => p.watch = [] ∨ p.replica ≠ []
      | .snapshot => p.snapshot = [] ∨ p.replica ≠ []
      | .outbox => p.outbox = []
      | .membership => p.membership = []) : p.take block = none := by
  cases block with
  | link | replica | outbox | membership => simp only [Posts.take, idle]
  | watch | snapshot =>
    simp only [Posts.take]
    split
    · next none some => simp [none, some] at idle
    · rfl

end

/-! ### One posting (R142) -/

section
variable {queue : List Notice} (plain : ∀ r ∈ queue, r.isOverflow = false) (n : Notice)
include plain

theorem postTo_of_room (room : queue.length ≤ 14) : postTo queue n = queue ++ [n] := by
  have room : queue.length + 1 < Config.noticeDepth := by simp only [Config.noticeDepth]; omega
  rw [postTo, (holdsOverflow_eq_false_iff queue).mpr plain, if_neg Bool.false_ne_true, if_pos room]

theorem postTo_of_last (last : queue.length = 15) : postTo queue n = queue ++ [overflowRecord 1] := by
  have full : ¬queue.length + 1 < Config.noticeDepth := by simp only [Config.noticeDepth]; omega
  rw [postTo, (holdsOverflow_eq_false_iff queue).mpr plain, if_neg Bool.false_ne_true, if_neg full]

theorem postTo_of_overflow (lost : Tally) : postTo (queue ++ [overflowRecord lost]) n =
    queue ++ [overflowRecord (if lost = 0xFFFFFF then 0xFFFFFF else lost + 1)] := by
  have held : holdsOverflow (queue ++ [overflowRecord lost]) = true := by simp [holdsOverflow]
  have kept : queue.map (fun r => if r.isOverflow then countLost r else r) = queue :=
    (List.map_congr_left fun r there => by simp [plain r there]).trans (List.map_id queue)
  rw [postTo, if_pos held, List.map_append, kept]
  rfl

end

/-- Settles O54: what each posting does, and the order of the postings of one close by the turns that the operand
gives. -/
theorem postingFollowsTable : Obligations.PostingFollowsTable := by
  unfold Obligations.PostingFollowsTable
  refine ⟨fun _ => rfl, fun _ => rfl, tallyOfBytes_states, fun _ _ => rfl, fun order p => ?_, fun _ => rfl,
    fun order p n more => ?_, fun order p block idle => Posts.inOrder_of_passed (Posts.take_eq_none idle),
    fun queue n plain => ⟨postTo_of_room plain n, postTo_of_last plain n, postTo_of_overflow plain n⟩⟩
  · exact ⟨Posts.inOrder_perm order p, Posts.link_sublist order p, Posts.replica_watch_sublist order p,
      Posts.replica_snapshot_sublist order p, Posts.outbox_sublist order p, Posts.membership_sublist order p⟩
  · refine ⟨fun head => ?_, fun head => ?_, fun head replica => ?_, fun head replica => ?_, fun head => ?_,
      fun head => ?_⟩
    all_goals exact Posts.inOrder_of_taken (by simp only [Posts.take, *])

end Sys2Proof.Machine

namespace Sys2Proof.Machine

open Sys2Proof.Safety

/-! ### The abort (R40 to R42) and the composition at the round timer (R27, R49) -/

/-- Settles O33: both commands abort, in SLOTS and in VERDICT alike. -/
theorem abortReturnsContributions : Obligations.AbortReturnsContributions := by
  intro s order round cs returned aborted t
  have inRound : s.link.inRound = true := s.link.inRound_iff.mpr round
  have aborts : s.abortRound order = t := rfl
  refine ⟨?_, fun running => ?_⟩
  · show execLmarkFallInRound order s = .next t
    rw [execLmarkFallInRound, if_pos inRound, aborts]
  · show execBeatStuckExpiry order s = .next t
    rw [execBeatStuckExpiry, if_pos ⟨inRound, running⟩, aborts]

theorem replicaCheck_eq (m : Record) (r : Replica) : replicaCheck m r =
    crc16 ((List.finRange 32).flatMap fun e : Entry =>
      (List.range 24).map fun i => (if m.kind e = .off then (0 : Tally) else r.entries[e].value).getLsbD (23 - i)) :=
  congrArg crc16 (List.flatMap_congr fun e _ => bitsOf_eq_getLsbD (readValue m r e))

theorem execRoundTimerExpiry_of_hold {s : State} (hold : s.link.state = .hold)
    (running : s.link.roundTimer.isSome = true) :
    execRoundTimerExpiry s = .next { s.compose with link := s.link.enterWait s.settings.stallLimit } :=
  if_pos ⟨hold, running⟩

theorem State.composedFrame_check (s : State) : s.composedFrame.check = replicaCheck s.settings s.replica := by
  simp only [State.composedFrame, Frame.sealed]

/-- Settles O24: the three spellings of the checks, then the expiry by whether the station transmits. -/
theorem roundTimerComposesAndReleases : Obligations.RoundTimerComposesAndReleases := by
  unfold Obligations.RoundTimerComposesAndReleases
  refine ⟨fun bits => rfl, fun _ _ _ => rfl, replicaCheck_eq, fun s hold running => ⟨fun invalid => ?_, fun valid =>
    ⟨s.composedFrame, s.outbox.afterComposition (decide (s.member.state = .member)), ?_, rfl, rfl, rfl,
      s.composedFrame_check, rfl, rfl,
      rfl, rfl, rfl, rfl, s.composedFrame_frameCheck, rfl, rfl, rfl, rfl, rfl, rfl, ?_, rfl⟩⟩⟩
  · show execRoundTimerExpiry s = _
    rw [execRoundTimerExpiry_of_hold hold running, State.compose, if_neg (by simp [invalid])]
    rfl
  · show execRoundTimerExpiry s = _
    rw [execRoundTimerExpiry_of_hold hold running, State.compose, if_pos valid]
    rfl
  · show (s.outbox.leave && !decide _) = (s.outbox.leave && !(s.outbox.leave && decide _))
    cases s.outbox.leave <;> rfl

end Sys2Proof.Machine

namespace Sys2Proof.Machine

open Sys2Proof.Safety

/-! ### READ_ENTRY and READ_OUTBOX (R21, R77, R157) -/

/-- The flag byte of READ_ENTRY from its three fields (Table 12-4). -/
theorem entryFlags_fields (known stale : Bool) (watch : Option Watch) :
    let flags := BitVec.ofNat 8 (known.toNat + 2 * stale.toNat + 4 * watchCode watch)
    flags.getLsbD 0 = known ∧ flags.getLsbD 1 = stale ∧
    flags.extractLsb' 2 2 = BitVec.ofNat 2 (watchCode watch) ∧ flags.extractLsb' 4 4 = 0 := by
  rcases watch with _ | _ | _ <;> revert known stale <;> decide

/-- The flag byte of READ_OUTBOX from its six fields (Table 12-4). -/
theorem outboxFlags_fields (saturated freeze flightFreeze leave flightLeave : Bool) (zero : Fin 3) :
    let flags := BitVec.ofNat 8 (saturated.toNat + 2 * zero.val + 16 * freeze.toNat + 32 * flightFreeze.toNat +
      64 * leave.toNat + 128 * flightLeave.toNat)
    flags.extractLsb' 1 2 = BitVec.ofNat 2 zero.val ∧ flags.getLsbD 0 = saturated ∧ flags.getLsbD 3 = false ∧
    flags.getLsbD 4 = freeze ∧ flags.getLsbD 5 = flightFreeze ∧ flags.getLsbD 6 = leave ∧
    flags.getLsbD 7 = flightLeave := by
  revert saturated freeze flightFreeze leave flightLeave zero
  decide

theorem Record.kind_nil (e : Entry) : Record.kind [] e = .off := by simp [Record.kind]

/-- The watch field of Table 12-4 by the setup and the watch. -/
theorem State.watchCode_watchState (s : State) (e : Entry) : BitVec.ofNat 2 (watchCode (s.watchState e)) =
    if s.settings.watched e = true then (if s.watches[e] = .above then 2 else 1) else 0 := by
  rw [State.watchState]
  split
  · cases s.watches[e] <;> rfl
  · rfl

/-- The zero state of an entry as a code, NONE for an OFF entry (R77). -/
def State.zeroCode (s : State) (e : Entry) : Fin 3 :=
  if s.settings.kind e = .off then 0
  else if e ∈ s.outbox.flightZeros then 2 else if e ∈ s.outbox.zeroList then 1 else 0

theorem State.outboxFlags_eq (s : State) (e : Entry) : s.outboxFlags e =
    BitVec.ofNat 8 (s.outbox.saturated[e].toNat + 2 * (s.zeroCode e).val + 16 * s.outbox.freeze.toNat +
      32 * s.outbox.flightFreeze.toNat + 64 * s.outbox.leave.toNat + 128 * s.outbox.flightLeave.toNat) := by
  simp only [State.outboxFlags, State.zeroCode, Outbox.zeroState]
  split
  · rfl
  · split
    · rfl
    · split <;> rfl

/-- The amount in flight for an entry named once is that of its record (R77). -/
theorem Outbox.inFlight_of_mem {o : Outbox} {d : Delta} (flies : d ∈ o.flightDeltas)
    (once : (o.flightDeltas.map fun x => x.entry).Nodup) : o.inFlight d.entry = d.amount.toInt := by
  have found : o.flightDeltas.find? (fun x => x.entry == d.entry) = some d := by
    obtain ⟨x, found⟩ := Option.isSome_iff_exists.mp
      (List.find?_isSome (p := fun x : Delta => x.entry == d.entry) |>.mpr ⟨d, flies, beq_self_eq_true d.entry⟩)
    have same : x.entry = d.entry := by simpa using List.find?_some found
    rw [found, List.inj_on_of_nodup_map once (List.mem_of_find?_eq_some found) flies same]
  rw [Outbox.inFlight, found]

theorem Outbox.inFlight_of_not_mem {o : Outbox} {e : Entry} (grounded : ∀ d ∈ o.flightDeltas, d.entry ≠ e) :
    o.inFlight e = 0 := by
  have missed : o.flightDeltas.find? (fun x => x.entry == e) = none := by simpa using grounded
  rw [Outbox.inFlight, missed]

/-- A request that names an entry above 31 (R157). -/
theorem withEntry_of_outside {entry : Byte} (outside : 31 < entry.toNat) (f : Entry → Answer) :
    withEntry entry f = quickly .badOperand [] := by
  rw [withEntry, entryOperand_of_outside outside]
  rfl

theorem withEntry_of_val {entry : Byte} {e : Entry} (names : e.val = entry.toNat) (f : Entry → Answer) :
    withEntry entry f = f e := by rw [withEntry, entryOperand_of_val names]

/-- READ_ENTRY's reply, field by field. -/
theorem entryReplies (s : State) (e : Entry) :
    (s.entryFlags e).getLsbD 0 = s.knownFlag e ∧ (s.entryFlags e).getLsbD 1 = s.replica.stale ∧
    ((s.entryFlags e).extractLsb' 2 2 =
      if s.settings.watched e = true then (if s.watches[e] = .above then 2 else 1) else 0) ∧
    (s.entryFlags e).extractLsb' 4 4 = 0 := by
  obtain ⟨known, stale, watch, clear⟩ := entryFlags_fields (s.knownFlag e) s.replica.stale (s.watchState e)
  exact ⟨known, stale, watch.trans (s.watchCode_watchState e), clear⟩

/-- Settles O11: both replies are read off the station, field by field. -/
theorem entryAndOutboxReplies : Obligations.EntryAndOutboxReplies := by
  unfold Obligations.EntryAndOutboxReplies
  refine ⟨fun s entry completes => ⟨fun outside => ?_, fun e names => ⟨readValue s.settings s.replica e, s.entryFlags e,
    ?_, rfl, ?_⟩⟩, fun s entry completes => ⟨fun outside => ?_, fun e names => ⟨
    BitVec.ofInt 16 (if s.settings.kind e = .off then 0 else s.outbox.pending[e]),
    BitVec.ofInt 16 (if s.settings.kind e = .off then 0 else s.outbox.inFlight e), s.outboxFlags e, ?_, ?_⟩⟩⟩
  · refine (takeRequest_answered (reading fun t => withEntry entry fun e => answerOk (t.entryReply e))
      completes).trans ?_
    rw [reading_fst, reading_snd, withEntry_of_outside outside]
  · refine (takeRequest_answered (reading fun t => withEntry entry fun e => answerOk (t.entryReply e))
      completes).trans ?_
    rw [reading_fst, reading_snd, withEntry_of_val names]
    rfl
  · obtain ⟨known, stale, watch, clear⟩ := entryReplies s e
    refine ⟨known.trans ?_, stale, watch, fun wf setup => ?_, clear⟩
    · rw [State.knownFlag]
      cases s.member.state with
      | setup | joining | member | listen => rfl
      | parked | incompatible | fault => by_cases off : s.settings.kind e = .off <;> simp [off]
    · have empty : s.settings = [] := State.settings_of_uncommitted (setup_uncommitted wf setup)
      rw [watch, readValue, empty, Record.watched_nil, Record.kind_nil]
      exact ⟨rfl, rfl⟩
  · refine (takeRequest_answered (reading fun t => withEntry entry fun e => answerOk (t.outboxReply e))
      completes).trans ?_
    rw [reading_fst, reading_snd, withEntry_of_outside outside]
  · refine (takeRequest_answered (reading fun t => withEntry entry fun e => answerOk (t.outboxReply e))
      completes).trans ?_
    rw [reading_fst, reading_snd, withEntry_of_val names, State.outboxReply]
    simp only [decide_eq_true_eq]
    rfl
  · obtain ⟨zero, rest⟩ := outboxFlags_fields s.outbox.saturated[e] s.outbox.freeze s.outbox.flightFreeze s.outbox.leave
      s.outbox.flightLeave (s.zeroCode e)
    rw [← s.outboxFlags_eq e] at zero rest
    refine ⟨fun off => ?_, fun used => ?_, rest⟩
    · rw [if_pos off, if_pos off, zero, State.zeroCode, if_pos off]
      exact ⟨rfl, rfl, rfl⟩
    · rw [if_neg used, if_neg used, zero, State.zeroCode, if_neg used]
      refine ⟨rfl, ?_, fun grounded => ?_, ?_⟩
      · rintro d flies rfl once
        rw [Outbox.inFlight_of_mem flies once]
      · rw [Outbox.inFlight_of_not_mem grounded]
        rfl
      · split
        · rfl
        · split <;> rfl

end Sys2Proof.Machine

namespace Sys2Proof.Machine

open Sys2Proof.Safety

/-! ### The first collided bit of the own slot (R53, R54, R72) -/

theorem firstCollision_of_differs {s : State} {ldata : Level} (own : s.inOwnSlot = true)
    (clean : s.frame.collided = false) (differs : ¬(s.link.holdLdata = true ↔ ldata = .low)) :
    s.firstCollision ldata = true := by
  simp [State.firstCollision, own, clean, (s.link.collides_iff ldata).mpr differs]

/-- The station once a first collision at a position has struck it (R53). -/
def State.struck (s : State) (position : Nat) : State :=
  { s with
    link := { s.link with holdLdata := false }
    frame := { s.frame with collided := true, strike := true, object := true }
    notices := postTo s.notices (s.collisionNotice position) }

theorem State.takeCollision_of_clear {s : State} (clear : s.frame.strike = false) (position : Nat) :
    s.takeCollision position = s.struck position := by
  rw [State.takeCollision, if_neg (by simp [clear])]
  rfl

theorem State.takeCollision_of_strike {s : State} (strike : s.frame.strike = true) (position : Nat) :
    s.takeCollision position = (s.post (s.collisionNotice position)).enterFault := if_pos strike

theorem State.recordBit_of_strike {s : State} (own : s.inOwnSlot = true) (strike : s.frame.strike = true)
    (ldata : Level) : s.recordBit ldata = { s with
      frame := { s.frame with readback := s.slotBits ldata, strike := true }
      link := (s.recordBit ldata).link } := by
  simp [State.recordBit, own, ← strike]

theorem State.strike_recordBit (s : State) (ldata : Level) : (s.recordBit ldata).frame.strike = s.frame.strike := by
  simp only [State.recordBit]
  split <;> rfl

section
variable {s : State} {ldata : Level}

/-- A second collision goes to FAULT, where the slot is not followed further (R54). -/
theorem State.sampleSlotBit_faults (first : s.firstCollision ldata = true) (strike : s.frame.strike = true) :
    s.sampleSlotBit ldata = ((s.recordBit ldata).post
      ((s.recordBit ldata).collisionNotice (s.link.bit + 1))).enterFault := by
  have faults := State.takeCollision_of_strike ((s.strike_recordBit ldata).trans strike) (s.link.bit + 1)
  rw [State.sampleSlotBit, if_pos first,
    show (s.recordBit ldata).link.bit = s.link.bit + 1 from rfl, faults]
  exact if_pos rfl

/-- A first collision strikes the station, which then takes the end of the slot if this bit is it (R53). -/
theorem State.sampleSlotBit_strikes (first : s.firstCollision ldata = true) (clear : s.frame.strike = false)
    (slots : s.link.state = .slots) : s.sampleSlotBit ldata =
      (((s.recordBit ldata).struck (s.link.bit + 1)).slotEnded.elim ((s.recordBit ldata).struck (s.link.bit + 1))
        ((s.recordBit ldata).struck (s.link.bit + 1)).endSlot) := by
  have strikes := State.takeCollision_of_clear ((s.strike_recordBit ldata).trans clear) (s.link.bit + 1)
  rw [State.sampleSlotBit, if_pos first, show (s.recordBit ldata).link.bit = s.link.bit + 1 from rfl, strikes]
  exact (if_neg (State.recordBit_on slots ldata)).trans (by cases State.slotEnded _ <;> rfl)

/-- The slot of a struck station ends with the collision mark, at the bit that ends it (R53, entry 26). -/
theorem State.slotEnded_struck (own : s.inOwnSlot = true) (position : Nat) : (s.struck position).slotEnded =
    if (s.link.bit = 1 ∧ s.link.presence.getLast? = some false) ∨ s.link.slotLength = some s.link.bit then
      some (.own true) else none := by
  have same : (s.struck position).inOwnSlot = true := own
  rw [State.slotEnded, same]
  show (if s.link.bit = 1 ∧ s.link.presence.getLast? = some false then some (SlotResult.own true)
    else if s.link.slotLength = some s.link.bit then some (SlotResult.own true) else none) = _
  by_cases silent : s.link.bit = 1 ∧ s.link.presence.getLast? = some false
  · rw [if_pos silent, if_pos (.inl silent)]
  · simp only [silent, if_false, false_or]

theorem State.endSlot_struck (own : s.inOwnSlot = true) (position : Nat) : (s.struck position).endSlot (.own true) =
    { s.struck position with
      link := nextSlot s.settings { s.link with holdLdata := false }
      frame := { s.frame with
        collided := true, strike := true, object := true, results := s.frame.results ++ [.own true] } } := by
  have sends : (s.struck position).transmits = true := ((inOwnSlot_iff s).mp own).1
  rw [State.endSlot_own sends]
  rfl

end

/-- Settles O30: with the strike flag clear by whether the bit leaves the slot open, is its last, or is a presence bit
read back high; with the flag set the change to FAULT. -/
theorem collisionStrikesOnceThenFaults : Obligations.CollisionStrikesOnceThenFaults := by
  unfold Obligations.CollisionStrikesOnceThenFaults
  intro s ldata rises sends slot clean differs collision bits length struck
  have own : s.afterRise.inOwnSlot = true := (inOwnSlot_iff s).mpr ⟨sends, slot⟩
  have first : s.afterRise.firstCollision ldata = true :=
    firstCollision_of_differs (s := s.afterRise) own clean differs
  have same : (s.afterRise.recordBit ldata).inOwnSlot = true := (s.afterRise.inOwnSlot_recordBit ldata).trans own
  have taken : exec (.ownFrameSent ldata) s = .next (s.afterRise.sampleSlotBit ldata) :=
    (execOwnFrameSent_of_own rises own ldata).trans (congrArg _ (takeRise_of_slots rises.1 ldata))
  have known (later : 1 ≤ s.link.bit) : s.afterRise.lengthAfter ldata = length := by
    rw [State.lengthAfter_own (s := s.afterRise) later own]
    show s.link.slotLength.or _ = length
    cases h : s.link.slotLength <;> simp only [length, bits, h] <;> rfl
  rw [taken]
  clear_value length
  refine ⟨fun clear later short => ?_, fun clear later last => ?_, fun clear begins holds high => ?_, fun strike => ?_⟩
  · rw [State.sampleSlotBit_strikes first clear rises.1, State.slotEnded_struck same,
      State.recordBit_own_later (s := s.afterRise) own later, known later, if_neg, Option.elim_none]
    · rfl
    · rintro (⟨one, -⟩ | ended)
      · exact absurd (Nat.succ.inj one) (Nat.ne_of_gt later)
      · exact short ended
  · rw [State.sampleSlotBit_strikes first clear rises.1, State.slotEnded_struck same,
      if_pos (.inr ((known later).trans last)), Option.elim_some, State.endSlot_struck same,
      State.recordBit_own_later (s := s.afterRise) own later, known later]
    rfl
  · subst high
    have silent := State.recordBit_own_first (s := s.afterRise) own begins .high
    rw [State.sampleSlotBit_strikes first clear rises.1, State.slotEnded_struck same, if_pos, Option.elim_some,
      State.endSlot_struck same, silent]
    · rfl
    · rw [silent]
      exact .inl ⟨rfl, List.getLast?_concat⟩
  · intro returned
    rw [State.sampleSlotBit_faults first strike, State.recordBit_of_strike own strike]
    rfl

end Sys2Proof.Machine

namespace Sys2Proof.Machine

open Sys2Proof.Safety

/-! ### The close of a round in the words of the statements (R38, R39) -/

/-- The station with the last verdict bit taken (R29, R38). -/
def State.lastVerdict (s : State) (ldata : Level) : State :=
  { s with link := { risen s with verdicts := s.link.verdicts ++ [ldata] } }

@[simp] theorem lastVerdict_settings (s : State) (ldata : Level) : (s.lastVerdict ldata).settings = s.settings := rfl
@[simp] theorem lastVerdict_valid (s : State) (ldata : Level) : (s.lastVerdict ldata).valid = s.valid := rfl
@[simp] theorem lastVerdict_watches (s : State) (ldata : Level) : (s.lastVerdict ldata).watches = s.watches := rfl
@[simp] theorem lastVerdict_outputs (s : State) (ldata : Level) : (s.lastVerdict ldata).outputs = s.outputs := rfl
@[simp] theorem lastVerdict_frame (s : State) (ldata : Level) : (s.lastVerdict ldata).frame = s.frame := rfl
@[simp] theorem lastVerdict_replica (s : State) (ldata : Level) : (s.lastVerdict ldata).replica = s.replica := rfl
@[simp] theorem lastVerdict_member (s : State) (ldata : Level) : (s.lastVerdict ldata).member = s.member := rfl
@[simp] theorem lastVerdict_outbox (s : State) (ldata : Level) : (s.lastVerdict ldata).outbox = s.outbox := rfl

theorem execRoundClose_of_atClose {s : State} (close : atClose s) (ldata : Level) (order : List NoticeBlock) :
    exec (.roundClose ldata order) s = .next ((s.lastVerdict ldata).closeRound order) := by
  obtain ⟨⟨verdict, low, released⟩, last⟩ := close
  have rises : s.link.riseCanCome = true := s.link.riseCanCome_iff.mpr ⟨.inr verdict, low, released⟩
  have atLast : s.atLastVerdict = true := by simp [State.atLastVerdict, verdict, last]
  have taken : s.takeRise ldata = s.lastVerdict ldata := if_neg (by rw [verdict]; decide)
  show execRoundClose ldata order s = _
  rw [execRoundClose, if_pos ⟨rises, atLast⟩, taken]

section
variable {s : State} {order : List NoticeBlock}

/-- A close that calls for no change of station state is the outcome taken (R80). -/
theorem State.closeRound_stays
    (stays : s.changeDue s.outcome (s.replicaAtClose s.outcome).1 (s.memberAtClose s.outcome) = none) :
    s.closeRound order = s.takeOutcome order := by
  rcases s.closeRound_cases order with ⟨-, eq⟩ | ⟨cause, due, -⟩
  · exact eq
  · exact absurd (due.symm.trans stays) (Option.some_ne_none cause)

/-- A close that calls for a change makes it once the outcome is taken (R80). -/
theorem State.closeRound_changes {cause : Cause}
    (due : s.changeDue s.outcome (s.replicaAtClose s.outcome).1 (s.memberAtClose s.outcome) = some cause) :
    s.closeRound order = (s.takeOutcome order).changeAtClose cause := by
  rcases s.closeRound_cases order with ⟨none, -⟩ | ⟨other, some, eq⟩
  · exact absurd (due.symm.trans none) (Option.some_ne_none cause)
  · rw [eq, Option.some.inj (some.symm.trans due)]

end

/-! ### The outcome -/

section
variable {s : State} {ldata : Level}

theorem outcome_transmitted : (s.lastVerdict ldata).outcome.transmitted = s.transmits := rfl

theorem outcome_committed : (s.lastVerdict ldata).outcome.committed = true ↔ objectorsWith s ldata = [] :=
  List.isEmpty_iff

theorem outcome_vetoed (vetoed : objectorsWith s ldata ≠ []) : (s.lastVerdict ldata).outcome.committed = false :=
  (Bool.not_eq_true _).mp (mt outcome_committed.mp vetoed)

theorem outcome_anyPresent : (s.lastVerdict ldata).outcome.anyPresent = true ↔ true ∈ s.link.presence := by
  show s.link.presence.any id = true ↔ _
  simp

theorem outcome_allSilent (silent : true ∉ s.link.presence) : (s.lastVerdict ldata).outcome.anyPresent = false :=
  (Bool.not_eq_true _).mp (mt outcome_anyPresent.mp silent)

theorem outcome_ownPresent : (s.lastVerdict ldata).outcome.ownPresent = true ↔ ownFramePresent s := by
  show (s.transmits && slotPresent s.link.presence s.settings.stationNumber) = true ↔ _
  rw [Bool.and_eq_true, slotPresent_iff]

theorem outcome_ownAbsent (absent : ¬ownFramePresent s) : (s.lastVerdict ldata).outcome.ownPresent = false :=
  (Bool.not_eq_true _).mp (mt outcome_ownPresent.mp absent)

theorem mem_presence_of_own (own : ownFramePresent s) : true ∈ s.link.presence := List.mem_of_getElem? own.2

theorem appliesRound_of_committed (valid : s.valid = true) (committed : objectorsWith s ldata = [])
    (present : true ∈ s.link.presence) :
    (s.lastVerdict ldata).appliesRound (s.lastVerdict ldata).outcome = true := by
  rw [State.appliesRound, outcome_committed.mpr committed, outcome_anyPresent.mpr present]
  exact congrArg (· && true && true) valid

theorem appliesRound_of_unchanged (unchanged : objectorsWith s ldata ≠ [] ∨ true ∉ s.link.presence) :
    (s.lastVerdict ldata).appliesRound (s.lastVerdict ldata).outcome = false := by
  rcases unchanged with vetoed | silent
  · rw [State.appliesRound, outcome_vetoed vetoed, Bool.and_false, Bool.false_and]
  · rw [State.appliesRound, outcome_allSilent silent, Bool.and_false]

theorem appliesRound_of_listen (listen : s.member.state = .listen) :
    (s.lastVerdict ldata).appliesRound (s.lastVerdict ldata).outcome = false := by
  have invalid : (s.lastVerdict ldata).valid = false := State.invalid_of_listen listen
  rw [State.appliesRound, invalid, Bool.false_and, Bool.false_and]

/-! ### What each block takes from it -/

theorem outboxAtClose_committed (cs : Option Half) (own : ownFramePresent s) (committed : objectorsWith s ldata = []) :
    (s.lastVerdict ldata).outboxAtClose (s.lastVerdict ldata).outcome cs =
      (s.outbox.retire, s.outbox.flightZeros.map (zeroDoneNotice cs)) := by
  rw [State.outboxAtClose, if_pos (outcome_ownPresent.mpr own), if_pos (outcome_committed.mpr committed)]
  rfl

theorem outboxAtClose_vetoed (cs : Option Half) (own : ownFramePresent s) (vetoed : objectorsWith s ldata ≠ []) :
    (s.lastVerdict ldata).outboxAtClose (s.lastVerdict ldata).outcome cs =
      ((s.outbox.giveBack cs).1, vetoedNotice cs (objectorsWith s ldata) :: (s.outbox.giveBack cs).2) := by
  rw [State.outboxAtClose, if_pos (outcome_ownPresent.mpr own),
    if_neg (ne_true_of_eq_false (outcome_vetoed vetoed))]
  rfl

theorem outboxAtClose_unheard (cs : Option Half) (sends : s.transmits = true) (unheard : ¬ownFramePresent s) :
    (s.lastVerdict ldata).outboxAtClose (s.lastVerdict ldata).outcome cs = s.outbox.giveBack cs := by
  rw [State.outboxAtClose, if_neg (ne_true_of_eq_false (outcome_ownAbsent unheard)),
    if_pos (outcome_transmitted.trans sends)]
  rfl

theorem outboxAtClose_quiet (cs : Option Half) (quiet : s.transmits = false) :
    (s.lastVerdict ldata).outboxAtClose (s.lastVerdict ldata).outcome cs = (s.outbox, []) := by
  have unheard : ¬ownFramePresent s := fun own => Bool.false_ne_true (quiet.symm.trans own.1)
  rw [State.outboxAtClose, if_neg (ne_true_of_eq_false (outcome_ownAbsent unheard)),
    if_neg (ne_true_of_eq_false (outcome_transmitted.trans quiet))]
  rfl

/-- The counts of a transmitting or valid station: its silence count stays (R86, R87, R91, R100). -/
theorem memberAtClose_of_valid (valid : s.valid = true) :
    (s.lastVerdict ldata).memberAtClose (s.lastVerdict ldata).outcome = { s.member with
      streak := if ownFramePresent s then (if s.frame.object = true then s.member.streak + 1 else 0)
        else s.member.streak
      roster := rosterAtClose s.settings s.transmits s.link.presence
      fresh := false
      cursor := if objectorsWith s ldata = [] ∧ ownFramePresent s then s.settings.nextUsed (s.member.cursor + 1)
        else s.member.cursor } := by
  have unsilent : silenceAtClose s.member (s.lastVerdict ldata).outcome.anyPresent = s.member.silence :=
    if_neg fun listen => Bool.false_ne_true ((State.invalid_of_listen listen).symm.trans valid)
  have streak : streakAtClose s.member (s.lastVerdict ldata).outcome =
      if ownFramePresent s then (if s.frame.object = true then s.member.streak + 1 else 0) else s.member.streak :=
    if_congr outcome_ownPresent rfl rfl
  have moves : ((s.lastVerdict ldata).outcome.committed && (s.lastVerdict ldata).outcome.ownPresent) = true ↔
      objectorsWith s ldata = [] ∧ ownFramePresent s := by
    rw [Bool.and_eq_true, outcome_committed, outcome_ownPresent]
  have cursor := if_congr moves (Eq.refl (s.settings.nextUsed (s.member.cursor + 1))) (Eq.refl s.member.cursor)
  show ({ s.member with
    streak := streakAtClose s.member (s.lastVerdict ldata).outcome
    silence := silenceAtClose s.member (s.lastVerdict ldata).outcome.anyPresent
    roster := rosterAtClose s.settings s.transmits s.link.presence
    fresh := false
    cursor := if ((s.lastVerdict ldata).outcome.committed && (s.lastVerdict ldata).outcome.ownPresent) = true then
      s.settings.nextUsed (s.member.cursor + 1) else s.member.cursor } : Membership) = _
  rw [unsilent, streak, cursor]

theorem memberAtClose_of_listen (listen : s.member.state = .listen) (quiet : s.transmits = false) :
    (s.lastVerdict ldata).memberAtClose (s.lastVerdict ldata).outcome = { s.member with
      silence := if true ∈ s.link.presence then 0 else min 255 (s.member.silence + 1)
      roster := rosterAtClose s.settings false s.link.presence
      fresh := false } := by
  have unheard := outcome_ownAbsent (ldata := ldata) fun own : ownFramePresent s =>
    Bool.false_ne_true (quiet.symm.trans own.1)
  have silence : silenceAtClose s.member (s.lastVerdict ldata).outcome.anyPresent =
      if true ∈ s.link.presence then 0 else min 255 (s.member.silence + 1) :=
    (if_pos listen).trans (if_congr outcome_anyPresent rfl rfl)
  simp only [State.memberAtClose, streakAtClose, unheard, Bool.and_false, outcome_transmitted, quiet]
  rw [← silence]
  rfl

/-- A round that is not applied at a valid station leaves the replica (R13, R14). -/
theorem replicaAtClose_unchanged (unchanged : objectorsWith s ldata ≠ [] ∨ true ∉ s.link.presence) :
    (s.lastVerdict ldata).replicaAtClose (s.lastVerdict ldata).outcome = (s.replica, []) := by
  rw [State.replicaAtClose, if_neg (ne_true_of_eq_false (appliesRound_of_unchanged unchanged)), if_neg]
  · rfl
  · rintro ⟨-, committed, present⟩
    exact unchanged.elim (· (outcome_committed.mp committed)) (· (outcome_anyPresent.mp present))

theorem replicaAtClose_foreign (listen : s.member.state = .listen) (foreign : foreignHeard s.frame.results = true) :
    (s.lastVerdict ldata).replicaAtClose (s.lastVerdict ldata).outcome = (s.replica, []) := by
  rw [State.replicaAtClose, if_neg (ne_true_of_eq_false (appliesRound_of_listen listen))]
  split
  · exact if_pos foreign
  · rfl

/-- A committed round with present frames and no foreign digest at a listener (R14, R15). -/
theorem replicaAtClose_adopts (listen : s.member.state = .listen) (committed : objectorsWith s ldata = [])
    (present : true ∈ s.link.presence) (own : foreignHeard s.frame.results = false) :
    (s.lastVerdict ldata).replicaAtClose (s.lastVerdict ldata).outcome =
      (if s.replica.inDoubt s.frame.results = true then Replica.empty
        else s.replica.adopt s.settings (ownDigestFrames s.frame.results), []) := by
  rw [State.replicaAtClose, if_neg (ne_true_of_eq_false (appliesRound_of_listen listen)),
    if_pos ⟨listen, outcome_committed.mpr committed, outcome_anyPresent.mpr present⟩,
    lastVerdict_frame, lastVerdict_replica, if_neg (ne_true_of_eq_false own)]
  split <;> rfl

end

theorem outputsAfterCommit_same (m : Record) (watches : Vector Watch 32) (outs : Vector Output 8) :
    outputsAfterCommit m watches watches outs = outs :=
  Vector.ext fun o inside => outputsAfterCommit_of_unmoved outs (o := ⟨o, inside⟩) (.inr rfl)

theorem limitNotices_same (m : Record) (r : Replica) (cs : Option Half) (watches : Vector Watch 32) :
    limitNotices m r cs watches watches = [] := by
  simp [limitNotices]

/-! ### The outcome taken -/

section
variable {s : State} {ldata : Level} {order : List NoticeBlock}

/-- The outcome taken where no table is applied: a veto, an all-silent round, and every round in LISTEN (R13 to R16). -/
theorem takeOutcome_unapplied {r : Replica} {back : Outbox × List Notice} {c : Membership}
    (unapplied : (s.lastVerdict ldata).appliesRound (s.lastVerdict ldata).outcome = false)
    (replica : (s.lastVerdict ldata).replicaAtClose (s.lastVerdict ldata).outcome = (r, []))
    (outbox : (s.lastVerdict ldata).outboxAtClose (s.lastVerdict ldata).outcome
      (if s.valid then some r.cs else none) = back)
    (member : (s.lastVerdict ldata).memberAtClose (s.lastVerdict ldata).outcome = c) :
    (s.lastVerdict ldata).takeOutcome order = { s with
      link := inBarrier s { risen s with verdicts := s.link.verdicts ++ [ldata] }
      frame := s.frame.afterClose
      replica := r
      outbox := back.1
      member := c
      notices := postAllTo s.notices (Posts.inOrder order
        { outbox := back.2
          membership := rosterNotices s.settings (if s.valid then some r.cs else none) s.member.fresh s.member.roster
            c.roster }) } := by
  have watches : (s.lastVerdict ldata).watchesAtClose (s.lastVerdict ldata).outcome r = s.watches :=
    if_neg (ne_true_of_eq_false unapplied)
  have snapshot : (s.lastVerdict ldata).snapshotAtClose (s.lastVerdict ldata).outcome r = (s.snapshots, []) :=
    if_neg fun applies => Bool.false_ne_true (unapplied.symm.trans applies.1)
  simp only [State.takeOutcome, replica, watches, snapshot, outbox, member, lastVerdict_valid, lastVerdict_settings,
    lastVerdict_watches, lastVerdict_outputs, outputsAfterCommit_same, limitNotices_same]
  rfl

end

end Sys2Proof.Machine

namespace Sys2Proof.Machine

open Sys2Proof.Safety

/-! ### The outcome of an applied round (R10, R125, R136, R137) -/

section
variable {s : State} {ldata : Level} {order : List NoticeBlock}

/-- What a round applied at a transmitting station stores as a snapshot, and what it posts for it (R136, R137). -/
theorem snapshotAtClose_applied
    (applies : (s.lastVerdict ldata).appliesRound (s.lastVerdict ldata).outcome = true) :
    (s.lastVerdict ldata).snapshotAtClose (s.lastVerdict ldata).outcome
      (s.replica.applyRound s.settings s.roundBusiness).1 = (commitSnapshots s, (commitPosts s).snapshot) := by
  rw [State.snapshotAtClose, commitSnapshots, commitPosts]
  by_cases none : freezeRequesters s.frame.results s.outbox.flightFreeze s.link.presence = []
  · rw [if_neg fun h => h.2 none]
    simp only [if_pos none, if_pos (Or.inl none : _ ∨ 4 ≤ s.snapshots.length)]
    rfl
  · rw [if_pos ⟨applies, none⟩]
    by_cases room : s.snapshots.length < 4
    · have kept : ¬(freezeRequesters s.frame.results s.outbox.flightFreeze s.link.presence = [] ∨
        4 ≤ s.snapshots.length) := fun h => h.elim none (Nat.not_le_of_gt room)
      have stored (snapshot : Snapshot) : storeSnapshot s.snapshots snapshot =
          (s.snapshots ++ [snapshot], snapshotNotice true snapshot) := if_pos room
      simp only [if_neg none, if_neg kept, if_pos room]
      exact congrArg (fun p : List Snapshot × Notice => (p.1, [p.2])) (stored _)
    · have dropped (snapshot : Snapshot) : storeSnapshot s.snapshots snapshot =
          (s.snapshots, snapshotNotice false snapshot) := if_neg room
      simp only [if_neg none, if_pos (Or.inr (Nat.le_of_not_lt room) : _ ∨ 4 ≤ s.snapshots.length), if_neg room]
      exact congrArg (fun p : List Snapshot × Notice => (p.1, [p.2])) (dropped _)

/-- The outcome taken where the table is applied, at a station that transmits (R10, R11). -/
theorem takeOutcome_applied {back : Outbox × List Notice} {c : Membership} (valid : s.valid = true)
    (committed : objectorsWith s ldata = []) (present : true ∈ s.link.presence)
    (outbox : (s.lastVerdict ldata).outboxAtClose (s.lastVerdict ldata).outcome
      (some (s.replica.applyRound s.settings s.roundBusiness).1.cs) = back)
    (member : (s.lastVerdict ldata).memberAtClose (s.lastVerdict ldata).outcome = c)
    (roster : c.roster = rosterAtClose s.settings true s.link.presence) :
    let applied := (s.replica.applyRound s.settings s.roundBusiness).1
    let watches := evaluateWatches s.settings applied s.watches
    (s.lastVerdict ldata).takeOutcome order = { s with
      link := inBarrier s { risen s with verdicts := s.link.verdicts ++ [ldata] }
      frame := s.frame.afterClose
      replica := applied
      watches := watches
      outputs := outputsAfterCommit s.settings s.watches watches s.outputs
      snapshots := commitSnapshots s
      outbox := back.1
      member := c
      notices := postAllTo s.notices (Posts.inOrder order { commitPosts s with outbox := back.2 }) } := by
  have applies := appliesRound_of_committed valid committed present
  have replica : (s.lastVerdict ldata).replicaAtClose (s.lastVerdict ldata).outcome =
      s.replica.applyRound s.settings s.roundBusiness := if_pos applies
  have watches (r : Replica) : (s.lastVerdict ldata).watchesAtClose (s.lastVerdict ldata).outcome r =
      evaluateWatches s.settings r s.watches := if_pos applies
  simp only [State.takeOutcome, replica, watches, snapshotAtClose_applied applies, outbox, member, lastVerdict_valid,
    valid, if_true, roster]
  rfl

/-! ### The one change of station state (R80) -/

variable {r : Replica} {c : Membership}

theorem changeDue_foreignBelow (valid : s.valid = true)
    (below : foreignBelow s.frame.results s.settings.stationNumber = true) :
    (s.lastVerdict ldata).changeDue (s.lastVerdict ldata).outcome r c = some .foreignDigest := by
  rcases State.valid_iff.mp valid with state | state <;>
    simp only [State.changeDue, lastVerdict_member, state, lastVerdict_frame, lastVerdict_settings, below, if_true]

theorem changeDue_withdrawn (valid : s.valid = true)
    (own : foreignBelow s.frame.results s.settings.stationNumber = false)
    (limit : s.settings.objectionLimit ≤ c.streak) :
    (s.lastVerdict ldata).changeDue (s.lastVerdict ldata).outcome r c = some .withdrawn := by
  rcases State.valid_iff.mp valid with state | state <;>
    simp only [State.changeDue, lastVerdict_member, state, lastVerdict_frame, lastVerdict_settings, own, limit,
      Bool.false_eq_true, if_false, if_true]

/-- Below the objection limit a valid station changes state only where its own frame was committed (R90, R97). -/
theorem changeDue_settled (valid : s.valid = true)
    (own : foreignBelow s.frame.results s.settings.stationNumber = false)
    (streak : c.streak < s.settings.objectionLimit) :
    (s.lastVerdict ldata).changeDue (s.lastVerdict ldata).outcome r c =
      if objectorsWith s ldata = [] ∧ ownFramePresent s then
        (if s.member.state = .joining then some .joined else if s.outbox.flightLeave = true then some .left else none)
      else none := by
  have below := Nat.not_le_of_gt streak
  have committed := outcome_committed (s := s) (ldata := ldata)
  have present := outcome_ownPresent (s := s) (ldata := ldata)
  rcases State.valid_iff.mp valid with state | state <;>
    simp only [State.changeDue, lastVerdict_member, state, lastVerdict_frame, lastVerdict_settings, own, below,
      lastVerdict_outbox, Bool.false_eq_true, if_false, Bool.and_eq_true, committed, present, if_true, reduceCtorEq]
  by_cases leaves : s.outbox.flightLeave = true <;> simp [leaves]

theorem changeDue_foreignHeard (listen : s.member.state = .listen) (foreign : foreignHeard s.frame.results = true) :
    (s.lastVerdict ldata).changeDue (s.lastVerdict ldata).outcome r c = some .foreignDigest := by
  simp only [State.changeDue, lastVerdict_member, listen, lastVerdict_frame, foreign, if_true]

/-- What a listener that hears no foreign digest does: it catches up, founds, or stays (R84, R88). -/
theorem changeDue_of_listen (listen : s.member.state = .listen) (own : foreignHeard s.frame.results = false) :
    (s.lastVerdict ldata).changeDue (s.lastVerdict ldata).outcome r c =
      if (objectorsWith s ldata = [] ∧ true ∈ s.link.presence) ∧ r.complete s.settings = true then some .caughtUp
      else if s.settings.foundingSilence ≤ c.silence ∧ s.settings.foundingAllowed = true then some .founded
      else none := by
  simp only [State.changeDue, lastVerdict_member, listen, lastVerdict_frame, lastVerdict_settings, own,
    Bool.false_eq_true, if_false, Bool.and_eq_true, outcome_committed, outcome_anyPresent]
  exact if_congr Iff.rfl rfl (if_congr (and_congr_left' decide_eq_true_iff) rfl rfl)

/-- A transmitting station keeps its strike flag only after a collision (R44, R55). -/
theorem afterClose_of_transmits (sends : s.transmits = true) :
    s.frame.afterClose = { s.frame with sending := none, strike := s.frame.strike && s.frame.collided } := by
  have sending : s.frame.sending.isSome = true := sends
  rw [FrameUnit.afterClose, sending, Bool.true_and, Bool.not_not]

theorem afterClose_of_quiet (quiet : s.transmits = false) : s.frame.afterClose = s.frame := by
  have isSome : s.frame.sending.isSome = false := quiet
  have sending : s.frame.sending = none := Option.not_isSome_iff_eq_none.mp (ne_true_of_eq_false isSome)
  rw [FrameUnit.afterClose, isSome, Bool.false_and, Bool.not_false, Bool.and_true, ← sending]

end

end Sys2Proof.Machine

namespace Sys2Proof.Machine

open Sys2Proof.Safety

/-! ### The closes of a valid station (R39, R69, R70, R90 to R97) -/

theorem noticeCs_of_valid {s : State} (valid : s.valid = true) (cs : Half) :
    (if s.valid then some cs else none) = some cs := if_pos valid

section
variable {s : State} {ldata : Level} {order : List NoticeBlock}

/-- A vetoed round at a valid station whose own frame was present (R70, R91). -/
theorem takeOutcome_vetoed (valid : s.valid = true) (own : ownFramePresent s) (vetoed : objectorsWith s ldata ≠ []) :
    (s.lastVerdict ldata).takeOutcome order = { s with
      link := inBarrier s { risen s with verdicts := s.link.verdicts ++ [ldata] }
      frame := { s.frame with sending := none, strike := s.frame.strike && s.frame.collided }
      outbox := (s.outbox.giveBack (some s.replica.cs)).1
      member := { s.member with
        streak := if s.frame.object = true then s.member.streak + 1 else 0
        roster := rosterAtClose s.settings true s.link.presence, fresh := false }
      notices := postAllTo s.notices (Posts.inOrder order
        { outbox := vetoNotice s ldata :: (s.outbox.giveBack (some s.replica.cs)).2
          membership := rosterNotices s.settings (some s.replica.cs) s.member.fresh s.member.roster
            (rosterAtClose s.settings true s.link.presence) }) } := by
  have cs := noticeCs_of_valid valid s.replica.cs
  have uncommitted : ¬(objectorsWith s ldata = [] ∧ ownFramePresent s) := fun h => vetoed h.1
  have member := memberAtClose_of_valid (ldata := ldata) valid
  rw [if_pos own, if_neg uncommitted, own.1] at member
  rw [takeOutcome_unapplied (appliesRound_of_unchanged (.inl vetoed)) (replicaAtClose_unchanged (.inl vetoed))
    (outboxAtClose_vetoed _ own vetoed) member, cs, afterClose_of_transmits own.1, vetoNotice, cs]
  rfl

/-- Settles O38: the outcome of the veto taken, then the change to LISTEN. -/
theorem withdrawalAtLimit : Obligations.WithdrawalAtLimit := by
  unfold Obligations.WithdrawalAtLimit
  intro s ldata order close valid own vetoed objects limit below cs returned
  have due : (s.lastVerdict ldata).changeDue (s.lastVerdict ldata).outcome
      ((s.lastVerdict ldata).replicaAtClose (s.lastVerdict ldata).outcome).1
      ((s.lastVerdict ldata).memberAtClose (s.lastVerdict ldata).outcome) = some .withdrawn := by
    refine changeDue_withdrawn valid below ?_
    rw [memberAtClose_of_valid valid]
    simpa only [if_pos own, if_pos objects] using limit
  rw [execRoundClose_of_atClose close, State.closeRound_changes due, takeOutcome_vetoed valid own vetoed]
  rfl

/-- A committed round at a valid station whose own frame was present (R10, R69, R86, R91). -/
theorem takeOutcome_committed (valid : s.valid = true) (own : ownFramePresent s)
    (committed : objectorsWith s ldata = []) (agrees : s.frame.object = false) :
    let applied := (s.replica.applyRound s.settings s.roundBusiness).1
    let watches := evaluateWatches s.settings applied s.watches
    (s.lastVerdict ldata).takeOutcome order = { s with
      link := inBarrier s { risen s with verdicts := s.link.verdicts ++ [ldata] }
      frame := { s.frame with sending := none, strike := s.frame.strike && s.frame.collided }
      replica := applied
      watches := watches
      outputs := outputsAfterCommit s.settings s.watches watches s.outputs
      snapshots := commitSnapshots s
      outbox := s.outbox.retire
      member := { s.member with
        streak := 0, roster := rosterAtClose s.settings true s.link.presence, fresh := false
        cursor := s.settings.nextUsed (s.member.cursor + 1) }
      notices := postAllTo s.notices (Posts.inOrder order (commitPosts s)) } := by
  have member := memberAtClose_of_valid (ldata := ldata) valid
  have moves : objectorsWith s ldata = [] ∧ ownFramePresent s := ⟨committed, own⟩
  rw [if_pos own, if_pos moves, own.1, if_neg (ne_true_of_eq_false agrees)] at member
  intro applied watches
  rw [takeOutcome_applied valid committed (mem_presence_of_own own) (outboxAtClose_committed _ own committed)
    member rfl, afterClose_of_transmits own.1]
  rfl

/-- What a committed round calls for at a valid station whose own frame was present (R90, R97). -/
theorem changeDue_committed (valid : s.valid = true) (own : ownFramePresent s) (committed : objectorsWith s ldata = [])
    (agrees : s.frame.object = false) (limit : 1 ≤ s.settings.objectionLimit)
    (below : foreignBelow s.frame.results s.settings.stationNumber = false) (r : Replica) :
    (s.lastVerdict ldata).changeDue (s.lastVerdict ldata).outcome r
      ((s.lastVerdict ldata).memberAtClose (s.lastVerdict ldata).outcome) =
        if s.member.state = .joining then some .joined
        else if s.outbox.flightLeave = true then some .left else none := by
  have due := changeDue_settled (ldata := ldata) (r := r)
    (c := (s.lastVerdict ldata).memberAtClose (s.lastVerdict ldata).outcome) valid below
  rw [if_pos ⟨committed, own⟩] at due
  refine due ?_
  rw [memberAtClose_of_valid valid]
  simp only [if_pos own, if_neg (ne_true_of_eq_false agrees)]
  exact limit

/-- A committed round at a transmitting station whose own frame was not heard (R11, R70, entry 34). -/
theorem takeOutcome_unheard_applied (valid : s.valid = true) (sends : s.transmits = true)
    (unheard : ¬ownFramePresent s) (committed : objectorsWith s ldata = []) (present : true ∈ s.link.presence) :
    let applied := (s.replica.applyRound s.settings s.roundBusiness).1
    let watches := evaluateWatches s.settings applied s.watches
    (s.lastVerdict ldata).takeOutcome order = { s with
      link := inBarrier s { risen s with verdicts := s.link.verdicts ++ [ldata] }
      frame := { s.frame with sending := none, strike := s.frame.strike && s.frame.collided }
      replica := applied
      watches := watches
      outputs := outputsAfterCommit s.settings s.watches watches s.outputs
      snapshots := commitSnapshots s
      outbox := (s.outbox.giveBack (some applied.cs)).1
      member := { s.member with roster := rosterAtClose s.settings true s.link.presence, fresh := false }
      notices := postAllTo s.notices (Posts.inOrder order
        { commitPosts s with outbox := (s.outbox.giveBack (some applied.cs)).2 }) } := by
  have member := memberAtClose_of_valid (ldata := ldata) valid
  rw [if_neg unheard, if_neg fun h => unheard h.2, sends] at member
  intro applied watches
  rw [takeOutcome_applied valid committed present (outboxAtClose_unheard _ sends unheard) member rfl,
    afterClose_of_transmits sends]

/-- A round that changes no table at a valid station whose own frame was not heard (R13, R70). -/
theorem takeOutcome_unheard_unchanged (valid : s.valid = true) (unheard : ¬ownFramePresent s)
    (unchanged : objectorsWith s ldata ≠ [] ∨ true ∉ s.link.presence) :
    (s.lastVerdict ldata).takeOutcome order = { s with
      link := inBarrier s { risen s with verdicts := s.link.verdicts ++ [ldata] }
      frame := s.frame.afterClose
      outbox := if s.transmits = true then (s.outbox.giveBack (some s.replica.cs)).1 else s.outbox
      member := { s.member with roster := rosterAtClose s.settings s.transmits s.link.presence, fresh := false }
      notices := postAllTo s.notices (Posts.inOrder order
        { outbox := if s.transmits = true then (s.outbox.giveBack (some s.replica.cs)).2 else []
          membership := rosterNotices s.settings (some s.replica.cs) s.member.fresh s.member.roster
            (rosterAtClose s.settings s.transmits s.link.presence) }) } := by
  have member := memberAtClose_of_valid (ldata := ldata) valid
  rw [if_neg unheard, if_neg fun h => unheard h.2] at member
  have outbox (cs : Option Half) : (s.lastVerdict ldata).outboxAtClose (s.lastVerdict ldata).outcome cs =
      if s.transmits = true then s.outbox.giveBack cs else (s.outbox, []) := by
    cases sends : s.transmits
    · exact outboxAtClose_quiet cs sends
    · exact outboxAtClose_unheard cs sends unheard
  rw [takeOutcome_unapplied (appliesRound_of_unchanged unchanged) (replicaAtClose_unchanged unchanged) (outbox _)
    member, noticeCs_of_valid valid]
  cases s.transmits <;> rfl

/-- Settles O36: the outcome of the commit taken, then the change to PARKED. -/
theorem leaveParksStation : Obligations.LeaveParksStation := by
  unfold Obligations.LeaveParksStation
  intro s ldata order close state own committed agrees limit below leaves m applied watches
  have valid : s.valid = true := State.valid_iff.mpr (.inr state)
  have due := changeDue_committed valid own committed agrees limit below
    ((s.lastVerdict ldata).replicaAtClose (s.lastVerdict ldata).outcome).1
  rw [if_neg (by rw [state]; decide), if_pos leaves] at due
  rw [execRoundClose_of_atClose close, State.closeRound_changes due, takeOutcome_committed valid own committed agrees]
  rw [Outbox.retire, leaves, Bool.not_true, Bool.and_false]
  simp only [State.changeAtClose, state]
  rfl

end

end Sys2Proof.Machine

namespace Sys2Proof.Machine

open Sys2Proof.Safety

/-! ### The closes of a listener (R13 to R18, R87, R93) -/

/-- The silence count that a round leaves a listener (R87). -/
def State.silenceCounted (s : State) : Nat :=
  if true ∈ s.link.presence then 0 else min 255 (s.member.silence + 1)

theorem State.silenceCounted_of_heard {s : State} (heard : true ∈ s.link.presence) : s.silenceCounted = 0 :=
  if_pos heard

theorem State.silenceCounted_of_silent {s : State} (silent : true ∉ s.link.presence) :
    s.silenceCounted = min 255 (s.member.silence + 1) := if_neg silent

section
variable {s : State} {ldata : Level} {order : List NoticeBlock}

/-- The outcome taken in LISTEN, by the replica that it leaves (R87, R100). -/
theorem takeOutcome_listen {r : Replica} (listen : s.member.state = .listen) (quiet : s.transmits = false)
    (replica : (s.lastVerdict ldata).replicaAtClose (s.lastVerdict ldata).outcome = (r, [])) :
    (s.lastVerdict ldata).takeOutcome order = { s with
      link := inBarrier s { risen s with verdicts := s.link.verdicts ++ [ldata] }
      replica := r
      member := { s.member with
        silence := s.silenceCounted
        roster := rosterAtClose s.settings false s.link.presence, fresh := false }
      notices := postAllTo s.notices (Posts.inOrder order
        { membership := rosterNotices s.settings none s.member.fresh s.member.roster
            (rosterAtClose s.settings false s.link.presence) }) } := by
  have cs : (if s.valid = true then some r.cs else none) = none :=
    if_neg (ne_true_of_eq_false (State.invalid_of_listen listen))
  rw [takeOutcome_unapplied (appliesRound_of_listen listen) replica (outboxAtClose_quiet _ quiet)
    (memberAtClose_of_listen listen quiet), afterClose_of_quiet quiet, cs]
  rfl

theorem silence_memberAtClose (listen : s.member.state = .listen) (quiet : s.transmits = false) :
    ((s.lastVerdict ldata).memberAtClose (s.lastVerdict ldata).outcome).silence = s.silenceCounted := by
  rw [memberAtClose_of_listen listen quiet]
  rfl

theorem mem_presence_of_vetoed (vetoed : objectorsWith s ldata ≠ []) : true ∈ s.link.presence := by
  obtain ⟨slot, objects⟩ := List.exists_mem_of_ne_nil _ vetoed
  have heard := (Bool.and_eq_true _ _ ▸ (List.mem_filter.mp objects).2).1
  exact List.mem_of_getElem? (beq_iff_eq.mp heard)

/-- A round that was heard founds nothing (R88). -/
theorem unfounded_of_heard (heard : true ∈ s.link.presence) (founding : 1 ≤ s.settings.foundingSilence) :
    ¬(s.settings.foundingSilence ≤ s.silenceCounted ∧ s.settings.foundingAllowed = true) := by
  rw [State.silenceCounted_of_heard heard]
  rintro ⟨none, -⟩
  exact Nat.not_succ_le_zero _ (founding.trans none)

/-- The watch states that the presets set (R18, R124). -/
theorem silentWatches_found (m : Record) (r : Replica) (before : Vector Watch 32) :
    silentWatches m (r.found m) before = Vector.ofFn fun e : Entry =>
      if m.watched e = true then
        (if m.watchHigh e ≤ (if m.kind e = .off then 0 else m.preset e) then .above else .below)
      else before[e] := by
  have value (e : Entry) : readValue m (r.found m) e = if m.kind e = .off then 0 else m.preset e := by
    by_cases off : m.kind e = .off <;> simp [readValue, Replica.found, off]
  simp only [silentWatches, silentWatch, value]

end

section
variable {s : State} (ldata : Level) (order : List NoticeBlock)

theorem roundClose_vetoed (close : atClose s) (valid : s.valid = true) (own : ownFramePresent s)
    (vetoed : objectorsWith s ldata ≠ []) (below : foreignBelow s.frame.results s.settings.stationNumber = false)
    (limit : (if s.frame.object = true then s.member.streak + 1 else 0) < s.settings.objectionLimit) :
    exec (.roundClose ldata order) s = .next ((s.lastVerdict ldata).takeOutcome order) := by
  have due := changeDue_settled (ldata := ldata)
    (r := ((s.lastVerdict ldata).replicaAtClose (s.lastVerdict ldata).outcome).1)
    (c := (s.lastVerdict ldata).memberAtClose (s.lastVerdict ldata).outcome) valid below
    (by rw [memberAtClose_of_valid valid]; simpa only [if_pos own] using limit)
  rw [if_neg fun h => vetoed h.1] at due
  rw [execRoundClose_of_atClose close, State.closeRound_stays due]

theorem roundClose_unheard (close : atClose s) (valid : s.valid = true) (unheard : ¬ownFramePresent s)
    (below : foreignBelow s.frame.results s.settings.stationNumber = false)
    (limit : s.member.streak < s.settings.objectionLimit) :
    exec (.roundClose ldata order) s = .next ((s.lastVerdict ldata).takeOutcome order) := by
  have due := changeDue_settled (ldata := ldata)
    (r := ((s.lastVerdict ldata).replicaAtClose (s.lastVerdict ldata).outcome).1)
    (c := (s.lastVerdict ldata).memberAtClose (s.lastVerdict ldata).outcome) valid below
    (by rw [memberAtClose_of_valid valid]; simpa only [if_neg unheard] using limit)
  rw [if_neg fun h => unheard h.2] at due
  rw [execRoundClose_of_atClose close, State.closeRound_stays due]

/-- A listener that neither catches up nor founds stays (R84, R88). -/
theorem roundClose_listens {r : Replica} (close : atClose s) (listen : s.member.state = .listen)
    (quiet : s.transmits = false) (own : foreignHeard s.frame.results = false)
    (replica : (s.lastVerdict ldata).replicaAtClose (s.lastVerdict ldata).outcome = (r, []))
    (behind : ¬((objectorsWith s ldata = [] ∧ true ∈ s.link.presence) ∧ r.complete s.settings = true))
    (unfounded : ¬(s.settings.foundingSilence ≤ s.silenceCounted ∧ s.settings.foundingAllowed = true)) :
    exec (.roundClose ldata order) s = .next ((s.lastVerdict ldata).takeOutcome order) := by
  have due := changeDue_of_listen (ldata := ldata) (r := r)
    (c := (s.lastVerdict ldata).memberAtClose (s.lastVerdict ldata).outcome) listen own
  rw [silence_memberAtClose listen quiet, if_neg behind, if_neg unfounded] at due
  rw [execRoundClose_of_atClose close, State.closeRound_stays (by rw [replica]; exact due)]

end

theorem foundTable_eq (t : State) : t.foundTable =
    { t with
      replica := t.replica.found t.settings
      watches := silentWatches t.settings (t.replica.found t.settings) t.watches
      outputs := outputsWithValidity t.settings
        (silentWatches t.settings (t.replica.found t.settings) t.watches) t.outputs
      member := { t.member with state := .member, silence := 0, cursor := t.settings.firstCarry } } := by
  simp only [State.foundTable, State.gainValidity, State.settings]

theorem State.postChange_of {t : State} {cs : Option Half} {entered : StationState} (cs_eq : t.noticeCs = cs)
    (state : t.member.state = entered) (cause : Cause) (left : StationState) : t.postChange cause left =
      { t with notices := postTo t.notices (changeNotice cs cause.code left.code entered.code) } := by
  rw [State.postChange, cs_eq, state]
  rfl

/-- The founding, with its notice (R18, R88). -/
theorem changeAtClose_founded {t : State} (listen : t.member.state = .listen) : t.changeAtClose .founded =
    { t with
      replica := t.replica.found t.settings
      watches := silentWatches t.settings (t.replica.found t.settings) t.watches
      outputs := outputsWithValidity t.settings
        (silentWatches t.settings (t.replica.found t.settings) t.watches) t.outputs
      member := { t.member with state := .member, silence := 0, cursor := t.settings.firstCarry }
      notices := postTo t.notices (changeNotice (some 0) 0x03 0x01 0x03) } := by
  have posts := State.postChange_of (t := t.foundTable) (cs := some 0) (entered := .member) rfl rfl .founded .listen
  rw [State.changeAtClose, listen]
  dsimp only
  rw [posts, foundTable_eq]
  rfl

/-- Settles O37: the veto heard, the own slot unheard (the round applied or not), and the veto in LISTEN. -/
theorem vetoedRoundChangesNoTable : Obligations.VetoedRoundChangesNoTable := by
  unfold Obligations.VetoedRoundChangesNoTable
  refine ⟨?_, ?_, ?_⟩
  · intro s ldata order close valid own vetoed below streak limit cs returned roster
    rw [roundClose_vetoed ldata order close valid own vetoed below limit, takeOutcome_vetoed valid own vetoed]
  · intro s ldata order close valid sends absent below limit m applied watches roster closed
    have unheard : ¬ownFramePresent s := fun own => absent own.2
    rw [roundClose_unheard ldata order close valid unheard below limit]
    refine ⟨fun committed present => ?_, fun unchanged => ?_⟩
    · rw [takeOutcome_unheard_applied valid sends unheard committed present]
    · rw [takeOutcome_unheard_unchanged valid unheard unchanged, if_pos sends, if_pos sends,
        afterClose_of_transmits sends, sends]
  · intro s ldata order close listen quiet vetoed own founding roster
    have heard := mem_presence_of_vetoed vetoed
    have replica := replicaAtClose_unchanged (ldata := ldata) (.inl vetoed)
    rw [roundClose_listens ldata order close listen quiet own replica (fun h => vetoed h.1.1)
      (unfounded_of_heard heard founding), takeOutcome_listen listen quiet replica, State.silenceCounted_of_heard heard]

/-- Settles O41: the silent round taken, then nothing or the founding. -/
theorem silenceFoundsTable : Obligations.SilenceFoundsTable := by
  unfold Obligations.SilenceFoundsTable
  intro s ldata order close listen quiet silent own m silence roster closed
  have replica := replicaAtClose_unchanged (ldata := ldata) (.inr silent)
  have taken := takeOutcome_listen (order := order) listen quiet replica
  rw [State.silenceCounted_of_silent silent] at taken
  refine ⟨fun early => ?_, fun late allowed => ?_⟩
  · have unfounded : ¬(s.settings.foundingSilence ≤ s.silenceCounted ∧ s.settings.foundingAllowed = true) := by
      rw [State.silenceCounted_of_silent silent]
      rintro ⟨reached, allowed⟩
      exact early.elim (Nat.not_lt_of_le reached) (ne_true_of_eq_false · allowed)
    rw [roundClose_listens ldata order close listen quiet own replica (fun h => silent h.1.2) unfounded, taken]
  · intro founded watches
    have due := changeDue_of_listen (ldata := ldata)
      (r := ((s.lastVerdict ldata).replicaAtClose (s.lastVerdict ldata).outcome).1)
      (c := (s.lastVerdict ldata).memberAtClose (s.lastVerdict ldata).outcome) listen own
    have reached : s.settings.foundingSilence ≤ s.silenceCounted ∧ s.settings.foundingAllowed = true :=
      ⟨late.trans_eq (State.silenceCounted_of_silent silent).symm, allowed⟩
    rw [if_neg fun h => silent h.1.2, silence_memberAtClose listen quiet, if_pos reached] at due
    have set : watches = silentWatches s.settings (s.replica.found s.settings) s.watches :=
      (silentWatches_found s.settings s.replica s.watches).symm
    clear_value watches
    subst set
    rw [execRoundClose_of_atClose close, State.closeRound_changes due, taken]
    rw [changeAtClose_founded]
    · rfl
    · exact listen

end Sys2Proof.Machine

namespace Sys2Proof.Machine

open Sys2Proof.Safety

/-! ### Doubt, the frames heard and the cursor (R14, R86) -/

theorem ownDigestFrames_eq_flatMap (results : List SlotResult) :
    ownDigestFrames results = results.flatMap fun result => match result with
      | .valid f false => [f]
      | _ => [] := by
  rw [ownDigestFrames, List.filterMap_eq_flatMap_toList]
  exact List.flatMap_congr fun result _ => by rcases result with _ | _ | ⟨f, _ | _⟩ | _ <;> rfl

theorem mem_ownDigestFrames {results : List SlotResult} {f : Frame} :
    f ∈ ownDigestFrames results ↔ SlotResult.valid f false ∈ results := by
  rw [ownDigestFrames, List.mem_filterMap]
  constructor
  · rintro ⟨result, heard, is⟩
    rcases result with _ | _ | ⟨g, _ | _⟩ | _ <;> simp only [reduceCtorEq, Option.some.injEq] at is
    exact is ▸ heard
  · exact fun heard => ⟨_, heard, rfl⟩

/-- The five conditions of R14. -/
theorem Replica.inDoubt_iff (r : Replica) (results : List SlotResult) :
    let heard (f : Frame) : Prop := SlotResult.valid f false ∈ results
    r.inDoubt results = true ↔
      SlotResult.invalid ∈ results ∨ (∃ f g, heard f ∧ heard g ∧ f.cs ≠ g.cs) ∨
      (r.csKnown = true ∧ ∃ f, heard f ∧ f.cs ≠ r.cs) ∨
      (∃ f g, heard f ∧ heard g ∧ f.carryIndex = g.carryIndex ∧ f.carryValue ≠ g.carryValue) ∨
      ∃ f, heard f ∧ r.entries[f.carryIndex].known = true ∧ f.carryValue ≠ r.entries[f.carryIndex].value := by
  intro heard
  simp only [Replica.inDoubt, Bool.or_eq_true, List.any_eq_true, Bool.and_eq_true, decide_eq_true_eq, beq_iff_eq,
    carriesDisagree, mem_ownDigestFrames, or_assoc, exists_eq_right]
  refine or_congr_right (or_congr ?_ (or_congr ?_ (or_congr_left ?_)))
  · exact exists_congr fun f => by rw [← exists_and_left]
  · exact ⟨fun ⟨f, is, known, differs⟩ => ⟨known, f, is, differs⟩,
      fun ⟨known, f, is, differs⟩ => ⟨f, is, known, differs⟩⟩
  · exact exists_congr fun f => by rw [← exists_and_left]

/-- The cyclic order rises in the distance from its start (R86). -/
theorem entriesFrom_pairwise (start : Entry) :
    (entriesFrom start).Pairwise fun x y => (x - start).val < (y - start).val := by
  rw [entriesFrom, List.pairwise_map]
  exact (List.pairwise_lt_finRange 32).imp fun {x y} less => by simpa using less

/-- The cursor takes the first used entry, counted from its start (R86). -/
theorem Record.nextUsed_first {m : Record} {used : Entry} (isUsed : m.kind used ≠ .off) (start : Entry) :
    (m.nextUsed start - start).val ≤ (used - start).val := by
  unfold Record.nextUsed
  cases first : (entriesFrom start).find? fun e => decide (m.kind e ≠ .off) with
  | none =>
    have none := List.find?_eq_none.mp first used (mem_entriesFrom start used)
    simp [isUsed] at none
  | some e =>
    obtain ⟨-, before, after, order, unused⟩ := List.find?_eq_some_iff_append.mp first
    have ascending := entriesFrom_pairwise start
    rw [order, List.pairwise_append] at ascending
    obtain ⟨-, later, -⟩ := ascending
    have there := mem_entriesFrom start used
    rw [order, List.mem_append, List.mem_cons] at there
    rcases there with there | rfl | there
    · simpa [isUsed] using unused used there
    · exact le_rfl
    · exact (List.rel_of_pairwise_cons later there).le

/-! ### The closes of a listener that catches up (R14 to R17, R85) -/

theorem enterJoining_eq (t : State) : t.enterJoining =
    { t with
      watches := silentWatches t.settings t.replica t.watches
      outputs := outputsWithValidity t.settings (silentWatches t.settings t.replica t.watches) t.outputs
      member := { t.member with state := .joining, cursor := t.settings.firstCarry } } := by
  simp only [State.enterJoining, State.gainValidity, State.settings]

/-- The end of catch-up, with its notice (R85). -/
theorem changeAtClose_caughtUp {t : State} (listen : t.member.state = .listen) : t.changeAtClose .caughtUp =
    { t with
      watches := silentWatches t.settings t.replica t.watches
      outputs := outputsWithValidity t.settings (silentWatches t.settings t.replica t.watches) t.outputs
      member := { t.member with state := .joining, cursor := t.settings.firstCarry }
      notices := postTo t.notices (changeNotice (some t.replica.cs) 0x02 0x01 0x02) } := by
  have posts := State.postChange_of (t := t.enterJoining) (cs := some t.replica.cs) (entered := .joining) rfl rfl
    .caughtUp .listen
  rw [State.changeAtClose, listen]
  dsimp only
  rw [posts, enterJoining_eq]
  rfl

theorem Replica.complete_empty (m : Record) : Replica.empty.complete m = false := rfl

section
variable {s : State} {ldata : Level} {order : List NoticeBlock}

/-- A committed round heard in LISTEN without a foreign digest, by the replica that it leaves (R84). -/
theorem roundClose_adopts {r : Replica} (close : atClose s) (listen : s.member.state = .listen)
    (quiet : s.transmits = false) (committed : objectorsWith s ldata = []) (present : true ∈ s.link.presence)
    (own : foreignHeard s.frame.results = false) (founding : 1 ≤ s.settings.foundingSilence)
    (adopted : (if s.replica.inDoubt s.frame.results = true then Replica.empty
        else s.replica.adopt s.settings (ownDigestFrames s.frame.results)) = r) :
    exec (.roundClose ldata order) s = .next (if r.complete s.settings = true then
        ((s.lastVerdict ldata).takeOutcome order).changeAtClose .caughtUp
      else (s.lastVerdict ldata).takeOutcome order) ∧
    (s.lastVerdict ldata).takeOutcome order = { s with
      link := inBarrier s { risen s with verdicts := s.link.verdicts ++ [ldata] }
      replica := r
      member := { s.member with silence := 0, roster := rosterAtClose s.settings false s.link.presence, fresh := false }
      notices := postAllTo s.notices (Posts.inOrder order
        { membership := rosterNotices s.settings none s.member.fresh s.member.roster
            (rosterAtClose s.settings false s.link.presence) }) } := by
  have replica := replicaAtClose_adopts listen committed present own
  rw [adopted] at replica
  have due := changeDue_of_listen (ldata := ldata) (r := r)
    (c := (s.lastVerdict ldata).memberAtClose (s.lastVerdict ldata).outcome) listen own
  rw [silence_memberAtClose listen quiet, if_neg (unfounded_of_heard present founding)] at due
  refine ⟨?_, by rw [takeOutcome_listen listen quiet replica, State.silenceCounted_of_heard present]⟩
  rw [execRoundClose_of_atClose close]
  by_cases complete : r.complete s.settings = true
  · rw [if_pos ⟨⟨committed, present⟩, complete⟩] at due
    rw [if_pos complete, State.closeRound_changes (by rw [replica]; exact due)]
  · rw [if_neg fun h => complete h.2] at due
    rw [if_neg complete, State.closeRound_stays (by rw [replica]; exact due)]

end

/-- Settles O40: the conditions of R14, R6 and R86, then the three ways a committed round leaves a listener. -/
theorem listenerAdoptsCommittedRound : Obligations.ListenerAdoptsCommittedRound := by
  unfold Obligations.ListenerAdoptsCommittedRound
  refine ⟨Replica.inDoubt_iff, ownDigestFrames_eq_flatMap, Replica.complete_iff, fun m start used isUsed =>
    ⟨Record.kind_nextUsed isUsed start, Record.nextUsed_first isUsed start⟩, ?_⟩
  intro s ldata order close listen quiet committed present own founding m adopted roster closed
  have closes {r : Replica} :=
    roundClose_adopts (r := r) (order := order) close listen quiet committed present own founding
  refine ⟨fun doubt => ?_, fun certain => ⟨fun incomplete => ?_, fun complete => ?_⟩⟩
  · obtain ⟨closed, taken⟩ := closes (if_pos doubt)
    rw [closed, if_neg (ne_true_of_eq_false (Replica.complete_empty _)), taken]
  · obtain ⟨closed, taken⟩ := closes (if_neg (ne_true_of_eq_false certain))
    rw [closed, if_neg (ne_true_of_eq_false incomplete), taken]
  · obtain ⟨closed, taken⟩ := closes (if_neg (ne_true_of_eq_false certain))
    rw [closed, if_pos complete, taken, changeAtClose_caughtUp]
    · rfl
    · exact listen

end Sys2Proof.Machine

namespace Sys2Proof.Machine

open Sys2Proof.Safety

/-! ### Foreign digests (R58, R93, R94) -/

theorem foreignHeard_iff (results : List SlotResult) :
    foreignHeard results = true ↔ ∃ f, SlotResult.valid f true ∈ results := by
  rw [foreignHeard, List.any_eq_true]
  constructor
  · rintro ⟨result, heard, foreign⟩
    rcases result with _ | _ | ⟨f, _ | _⟩ | _ <;> simp only [Bool.false_eq_true] at foreign
    exact ⟨f, heard⟩
  · exact fun ⟨f, heard⟩ => ⟨_, heard, rfl⟩

theorem foreignBelow_iff (results : List SlotResult) (number : Nat) : foreignBelow results number = true ↔
    ∃ slot f, slot < number ∧ results[slot]? = some (.valid f true) := by
  rw [foreignBelow, foreignHeard_iff, exists_comm]
  refine exists_congr fun f => ?_
  rw [List.mem_iff_getElem?]
  refine exists_congr fun slot => ?_
  rw [List.getElem?_take]
  split <;> simp [*]

/-- The change to INCOMPATIBLE, with its notice (R20, R24, R44, R131). -/
theorem changeAtClose_foreignDigest {t : State} {left : StationState} (state : t.member.state = left) :
    t.changeAtClose .foreignDigest = { t with
      link := { Link.reset with lbeat := t.link.lbeat }
      frame := { FrameUnit.reset with strike := t.frame.strike }
      replica := { t.replica with stale := true }
      outputs := outputsWithoutValidity t.settings t.outputs
      member := { t.member with state := .incompatible }
      notices := postTo t.notices (changeNotice none 0x06 left.code 0x05) } := by
  subst state
  rfl

/-- Settles O39: the spellings of the two tests, then the listener, the veto by whether the own frame was heard, and the
round applied without it. -/
theorem foreignDigestStandsAside : Obligations.ForeignDigestStandsAside := by
  unfold Obligations.ForeignDigestStandsAside
  refine ⟨fun results number => ⟨foreignHeard_iff results, foreignBelow_iff results number⟩, ?_, ?_, ?_⟩
  · intro s ldata order close listen quiet foreign roster
    have replica := replicaAtClose_foreign (ldata := ldata) listen foreign
    rw [execRoundClose_of_atClose close, State.closeRound_changes (changeDue_foreignHeard listen foreign),
      takeOutcome_listen listen quiet replica, changeAtClose_foreignDigest (left := .listen)]
    · rfl
    · exact listen
  · intro s ldata order close valid vetoed below cs returned roster
    rw [execRoundClose_of_atClose close, State.closeRound_changes (changeDue_foreignBelow valid below)]
    by_cases own : ownFramePresent s
    · have marks : roster = rosterAtClose s.settings true s.link.presence := by rw [← own.1]
      clear_value roster
      subst marks
      rw [takeOutcome_vetoed valid own vetoed, changeAtClose_foreignDigest rfl, if_pos own, if_pos own, if_pos own.1,
        own.1, Bool.true_and, Bool.not_not]
      rfl
    · rw [takeOutcome_unheard_unchanged valid own (.inl vetoed), changeAtClose_foreignDigest rfl, if_neg own,
        if_neg own]
      rfl
  · intro s ldata order close valid sends absent committed present below m applied watches returned
    have unheard : ¬ownFramePresent s := fun own => absent own.2
    rw [execRoundClose_of_atClose close, State.closeRound_changes (changeDue_foreignBelow valid below),
      takeOutcome_unheard_applied valid sends unheard committed present, changeAtClose_foreignDigest rfl]
    rfl

end Sys2Proof.Machine

namespace Sys2Proof.Machine

open Sys2Proof.Safety

/-! ### The business and the requesters of a round (R10, R11, R136) -/

/-- What is picked from each place of a list, place by place. -/
theorem filterMap_zipIdx_eq_flatMap {α β : Type} (pick : α × Nat → Option β) (xs : List α) :
    xs.zipIdx.filterMap pick =
      (List.range xs.length).flatMap fun i => (xs[i]?.bind fun x => pick (x, i)).toList := by
  induction xs using List.reverseRecOn with
  | nil => rfl
  | append_singleton xs x ih =>
    rw [List.zipIdx_append, List.filterMap_append, ih, List.length_append, List.length_singleton, List.range_succ,
      List.flatMap_append]
    congr 1
    · refine List.flatMap_congr fun i inside => ?_
      rw [List.getElem?_append_left (List.mem_range.mp inside)]
    · have last : (xs ++ [x])[xs.length]? = some x := List.getElem?_concat_length
      rw [List.flatMap_singleton, last, List.zipIdx_singleton, Nat.zero_add, Option.bind_some]
      cases picked : pick (x, xs.length) <;> simp only [List.filterMap, picked, Option.toList]

theorem State.roundBusiness_eq_flatMap (s : State) :
    s.roundBusiness = (List.range s.frame.results.length).flatMap fun slot =>
      if s.link.presence[slot]? = some true then
        match s.frame.results[slot]? with
        | some (SlotResult.valid f false) => [{ zeros := f.zeros, deltas := f.deltas }]
        | some (SlotResult.own _) => [{ zeros := s.outbox.flightZeros, deltas := s.outbox.flightDeltas }]
        | _ => []
      else [] := by
  rw [State.roundBusiness, filterMap_zipIdx_eq_flatMap]
  refine List.flatMap_congr fun slot _ => ?_
  by_cases present : s.link.presence[slot]? = some true
  · rw [if_pos present]
    rcases s.frame.results[slot]? with _ | _ | _ | ⟨f, _ | _⟩ | _ <;>
      simp [slotPresent_iff.mpr present, Frame.business]
  · rw [if_neg present]
    cases s.frame.results[slot]? <;> simp [mt slotPresent_iff.mp present]

theorem mem_freezeRequesters (results : List SlotResult) (own : Bool) (presence : List Bool) (slot : Nat) :
    slot ∈ freezeRequesters results own presence ↔ presence[slot]? = some true ∧
      ((∃ f foreign, results[slot]? = some (.valid f foreign) ∧ f.freeze = true) ∨
        (∃ collided, results[slot]? = some (.own collided) ∧ own = true)) := by
  simp only [freezeRequesters, List.mem_filterMap, Prod.exists, List.mem_zipIdx_iff_getElem?]
  constructor
  · rintro ⟨result, place, there, requests⟩
    by_cases present : presence[place]? = some true
    · rw [if_pos present] at requests
      cases result with
      | silent | invalid => exact nomatch requests
      | valid f foreign =>
        obtain ⟨freezes, is⟩ := Option.ite_none_right_eq_some.mp requests
        obtain rfl := Option.some.inj is
        exact ⟨present, .inl ⟨f, foreign, there, freezes⟩⟩
      | own collided =>
        obtain ⟨freezes, is⟩ := Option.ite_none_right_eq_some.mp requests
        obtain rfl := Option.some.inj is
        exact ⟨present, .inr ⟨collided, there, freezes⟩⟩
    · exact absurd requests (by rw [if_neg present]; exact nofun)
  · rintro ⟨present, ⟨f, foreign, there, freezes⟩ | ⟨collided, there, freezes⟩⟩
    all_goals exact ⟨_, slot, there, by simp [present, freezes]⟩

theorem getLsbD_stationSet {slot : Nat} (inside : slot < 16) (stations : List Nat) :
    (stationSet stations).getLsbD slot = decide (slot ∈ stations) := by
  suffices ∀ set : Half, (stations.foldl (fun set k => set ||| BitVec.twoPow 16 k) set).getLsbD slot =
      (set.getLsbD slot || decide (slot ∈ stations)) by
    rw [stationSet, this]
    simp
  induction stations with
  | nil => simp
  | cons k rest ih =>
    intro set
    rw [List.foldl_cons, ih, BitVec.getLsbD_or, BitVec.getLsbD_twoPow]
    by_cases same : k = slot
    · simp [same, inside]
    · simp [same, Ne.symm same]

/-- A joining station becomes MEMBER, with its notice (R90). -/
theorem changeAtClose_joined {t : State} {left : StationState} (state : t.member.state = left) :
    t.changeAtClose .joined = { t with
      member := { t.member with state := .member }
      notices := postTo t.notices (changeNotice (some t.replica.cs) 0x04 left.code 0x03) } := by
  subst state
  rfl

/-- Settles O35: the business, the application and the requesters spelled out, then the outcome of the commit with the
change to MEMBER for a joining station. -/
theorem committedRoundAtMember : Obligations.CommittedRoundAtMember := by
  unfold Obligations.CommittedRoundAtMember
  refine ⟨State.roundBusiness_eq_flatMap, fun _ _ _ => rfl, fun results own presence slot =>
    ⟨mem_freezeRequesters results own presence slot, fun inside => getLsbD_stationSet inside _⟩, ?_⟩
  intro s ldata order close valid own committed agrees limit below leaves m applied watches posted
  have due := changeDue_committed valid own committed agrees limit below
    ((s.lastVerdict ldata).replicaAtClose (s.lastVerdict ldata).outcome).1
  have taken := takeOutcome_committed (order := order) valid own committed agrees
  rw [execRoundClose_of_atClose close]
  rcases State.valid_iff.mp valid with state | state
  · rw [if_pos state] at due
    rw [State.closeRound_changes due, taken, if_pos state, changeAtClose_joined (left := .joining)]
    · rfl
    · exact state
  · have stays : s.outbox.flightLeave = false :=
      (Bool.not_eq_true _).mp fun leaving => absurd ((leaves leaving).symm.trans state) (by decide)
    rw [if_neg (by rw [state]; decide), if_neg (ne_true_of_eq_false stays)] at due
    rw [State.closeRound_stays due, taken, if_neg (by rw [state]; decide), ← state]
    rfl

end Sys2Proof.Machine
